-- ==== Sys2Proof/Word.lean ====
section
/-! DEFINITION. The two word types of the hardware: a byte (DATA_BITS = 8) and a word (ADDR_BITS = 16), spec 00_scope.md R7. -/

namespace Sys2Proof

/-- A register's, a memory cell's or a bus datum's value: 8 bits (00_scope.md R7 `DATA_BITS`). -/
abbrev Byte := BitVec 8

/-- The program counter's or a bus address's value: 16 bits (00_scope.md R7 `ADDR_BITS`). -/
abbrev Word := BitVec 16

end Sys2Proof
end

