-- ==== Sys2Proof/Machine/Bits.lean ====
section
/-! DEFINITION. The notation of spec 00_scope.md section 4 on bytes and words: `hi`, `lo`, `word`, `sext_8`, and the
addresses the instruction set fixes in pages 0 and 1. -/

namespace Sys2Proof

/-- `hi(w)` = `w[15:8]` (00_scope.md section 4). -/
def hi (w : Word) : Byte := w.extractLsb' 8 8

/-- `lo(w)` = `w[7:0]` (00_scope.md section 4). -/
def lo (w : Word) : Byte := w.extractLsb' 0 8

/-- `word(h, l)` = `h * 256 + l` (00_scope.md section 4); the little-endian pair `l`, `h` of 20_memory.md R47. -/
def word (h l : Byte) : Word := h ++ l

/-- `sext_8(b)` as a word, for the branch target (30_encoding.md R62, 40_step_and_addressing.md R95). -/
def sext (b : Byte) : Word := b.signExtend 16

/-- The zero-page address `word(0x00, b)` (40_step_and_addressing.md R87). -/
def zeroPage (b : Byte) : Word := word 0x00#8 b

/-- The stack address `0x0100 | S` (10_state.md R13, 42_stack.md R130). -/
def stackAddr (sp : Byte) : Word := 0x0100#16 ||| sp.setWidth 16

end Sys2Proof
end

