-- ==== Sys2Proof/Config.lean ====
section
/-! DEFINITION. What the implementation fixes and what it leaves open (spec 00_scope.md R7): the constants of the parameter
table, the regions and the region descriptors of the construction input, and the uninterpreted behaviour of the devices. -/

namespace Sys2Proof

/-- `N`, the size of the address space and of the backing store (00_scope.md R7, 92_eei_decisions.md D3). -/
abbrev Config.spaceSize : Nat := 65536

/-- One entry of the construction input `REGIONS` (20_memory.md R31). `device` is the `device_callback`: the number that
names the callback, when there is one (one callback may serve several regions, R40). -/
structure RegionDescriptor where
  start : Nat
  length : Nat
  readOnly : Bool
  initialSource : Option (List Byte)
  sourceOffset : Nat
  device : Option Nat
  deriving DecidableEq, Repr

/-- The kind of a region (20_memory.md R32). A `DEVICE` region names its callback by a number. -/
inductive RegionKind where
  | ram
  | rom
  | device (id : Nat)
  deriving DecidableEq, Repr

/-- A region of the address space: the half-open interval from `start` to `start + length` (20_memory.md R31, R35). -/
structure Region where
  start : Nat
  length : Nat
  kind : RegionKind
  deriving DecidableEq, Repr

/-- What a device can be told (20_memory.md R40, R41): a call of its callback, with `value` present on a bus write and
absent on a bus read, at the full 16-bit bus address; or a change made by the outside world between two steps. -/
inductive DeviceEvent where
  | call (device : Nat) (address : Word) (value : Option Byte)
  | outside (code : Nat)
  deriving DecidableEq, Repr

/-- The parameter `DEVICES` (20_memory.md R40, 92_eei_decisions.md OPEN-2): the byte that device `device` answers to a bus
read of `address` after the events `history`, newest first. It has no body: any value (93_implementation_defined.md U15).
A state machine the core does not look inside is a function of what it has been told, so every device is of this form. -/
opaque Config.deviceAnswer (device : Nat) (history : List DeviceEvent) (address : Word) : Byte

end Sys2Proof
end

