-- ==== Sys2Proof/Machine/State.lean ====
section
/-! DEFINITION. The state of the core, all of it plain data (spec 10_state.md R10 to R25), the reasons a step or a host
action can stop, and the state after construction (70_reset_and_hazards.md R261). -/

namespace Sys2Proof.Machine

/-- The six one-bit flags of `P` (10_state.md R16). Bits 5 and 4 of a status byte have no storage
(92_eei_decisions.md D18). -/
@[ext]
structure Flags where
  /-- `P.N`, negative -/
  n : Bool
  /-- `P.V`, overflow -/
  v : Bool
  /-- `P.D`, decimal mode -/
  d : Bool
  /-- `P.I`, interrupt disable -/
  i : Bool
  /-- `P.Z`, zero -/
  z : Bool
  /-- `P.C`, carry -/
  c : Bool
  deriving DecidableEq, Repr

/-- The backing store (20_memory.md R30) as the list of its bytes that are not 0x00, by rising address: an address that
the list does not name reads as 0x00, the zero fill of R34. `Memory.wf` (Machine/Ops.lean) is this form. -/
abbrev Memory := List Host.Cell

/-- The whole machine. Fields that no step changes (`regions`, `hasIntLines`) are the construction's, and the host's or a
device's act between steps is a function of Machine/HostOps.lean on this state. -/
@[ext]
structure State where
  /-- `A`, the accumulator (10_state.md R11) -/
  a : Byte
  /-- `X`, an index register (10_state.md R12) -/
  x : Byte
  /-- `Y`, an index register (10_state.md R12) -/
  y : Byte
  /-- `S`, the stack pointer (10_state.md R13) -/
  sp : Byte
  /-- `pc`, the program counter (10_state.md R14, R15) -/
  pc : Word
  /-- `P`, the flags (10_state.md R16) -/
  p : Flags
  /-- `store`, the backing store (20_memory.md R30) -/
  store : Memory
  /-- `REGIONS`, the region table (20_memory.md R31, R35: fixed at construction) -/
  regions : List Region
  /-- device state: everything the devices have been told, newest first (10_state.md R24, 20_memory.md R40) -/
  deviceLog : List DeviceEvent
  /-- `HAS_INT_LINES`, whether the interrupt lines exist (00_scope.md R7, 60_exceptions.md R233) -/
  hasIntLines : Bool
  /-- `irq_line`, the level of the IRQ line (60_exceptions.md R234) -/
  irqLine : Bool
  /-- `nmi_pending`, the latch of the NMI line (60_exceptions.md R235) -/
  nmiPending : Bool
  /-- what the last `step()` returned (70_reset_and_hazards.md R262, R275): an output, read by no rule -/
  cost : Nat
  deriving DecidableEq, Repr

/-- The faults of the machine: none. "The hardware raises no synchronous exception" (60_exceptions.md R230); nothing
raises a fault, which is safe. -/
inductive Fault where
  deriving DecidableEq, Repr

/-- Why the machine, or a request of its host, is refused. -/
inductive Refusal where
  /-- Raised only by an arm of `exec` whose instruction has no meaning yet (there is none). Safe: nothing runs. -/
  | notModelled (mnemonic : String)
  /-- Raised by construction, never by a step: the region table is invalid, "no core exists" (20_memory.md R33). Safe. -/
  | invalidRegionTable
  /-- Raised by `read_range` and `write_range`, never by a step: the range reaches past `N` (20_memory.md R45, R46). Safe. -/
  | rangePastStore
  deriving DecidableEq, Repr

/-- The state right after construction, R261: `P.I` = 1, the store zero, no interrupt pending, and `pc` the default
`INITIAL_PC`, the word at 0xFFFC, which is 0x0000 in a zero store. The registers R261 leaves unspecified have the values it
offers a simulator (notes/assumptions/1.md), and `REGIONS` is one `RAM` region over all of the space
(notes/assumptions/2.md). -/
def State.reset : State where
  a := 0x00#8
  x := 0x00#8
  y := 0x00#8
  sp := 0xFD#8
  pc := 0x0000#16
  p := { n := false, v := false, d := false, i := true, z := false, c := false }
  store := []
  regions := [{ start := 0, length := 65536, kind := .ram }]
  deviceLog := []
  hasIntLines := false
  irqLine := false
  nmiPending := false
  cost := 0

end Sys2Proof.Machine
end

