-- ==== Sys2Proof/Machine/Flags.lean ====
section
/-! DEFINITION. Every flag computation of the spec, as functions on bytes and flags: `SetNZ`, `PackP`, `UnpackP`
(10_state.md R18 to R20), binary and decimal ADC and SBC, compares (43_arithmetic.md R140 to R146), BIT (44_logic.md R163),
shifts, rotates, increment and decrement (45_shift_incdec.md R170 to R175). -/

namespace Sys2Proof.Machine

/-- `SetNZ(v)` (10_state.md R18). -/
def Flags.setNZ (p : Flags) (v : Byte) : Flags := { p with n := v.msb, z := v == 0#8 }

/-- One flag as a bit of the status byte. -/
def flagBit (b : Bool) (k : Nat) : Byte := (BitVec.ofBool b).setWidth 8 <<< k

/-- `PackP(b)`: N V 1 b D I Z C, bit 7 first (10_state.md R19). -/
def Flags.pack (p : Flags) (b : Bool) : Byte :=
  flagBit p.n 7 ||| flagBit p.v 6 ||| flagBit true 5 ||| flagBit b 4 |||
    flagBit p.d 3 ||| flagBit p.i 2 ||| flagBit p.z 1 ||| flagBit p.c 0

/-- `UnpackP(v)`: bits 5 and 4 are discarded (10_state.md R20). -/
def Flags.unpack (v : Byte) : Flags where
  n := v.getLsbD 7
  v := v.getLsbD 6
  d := v.getLsbD 3
  i := v.getLsbD 2
  z := v.getLsbD 1
  c := v.getLsbD 0

/-- A result byte with the flags after it. -/
structure Result8 where
  value : Byte
  flags : Flags
  deriving DecidableEq, Repr

/-- Bit 7 of `(~(a ^ m)) & (a ^ t)`: operands of equal sign, a sum of the other sign (43_arithmetic.md R140). -/
def addOverflow (a m t : Byte) : Bool := (~~~(a ^^^ m) &&& (a ^^^ t)).msb

/-- ADC with `P.D` = 0 (43_arithmetic.md R140). -/
def adcBinary (a m : Byte) (p : Flags) : Result8 :=
  let t := a.toNat + m.toNat + p.c.toNat
  let r := BitVec.ofNat 8 t
  { value := r, flags := { p.setNZ r with v := addOverflow a m r, c := decide (0xFF < t) } }

/-- The low digit of a decimal sum, carried into bit 4 when it passes 9 (43_arithmetic.md R141). -/
def decimalLowSum (a m : Byte) (c : Bool) : Nat :=
  let l := a.toNat % 16 + m.toNat % 16 + c.toNat
  if 0x0A ≤ l then (l + 0x06) % 16 + 0x10 else l

/-- ADC with `P.D` = 1 (43_arithmetic.md R141): Z from the binary sum, N and V from the sum before the high digit is
corrected. -/
def adcDecimal (a m : Byte) (p : Flags) : Result8 :=
  let t := a.toNat / 16 * 16 + m.toNat / 16 * 16 + decimalLowSum a m p.c
  let t8 := BitVec.ofNat 8 t
  let t' := if 0xA0 ≤ t then t + 0x60 else t
  { value := BitVec.ofNat 8 t'
    flags :=
      { p with
        n := t8.msb
        v := addOverflow a m t8
        z := (a.toNat + m.toNat + p.c.toNat) % 256 == 0
        c := decide (0x100 ≤ t') } }

/-- ADC (43_arithmetic.md R140, R141). -/
def adcFlags (a m : Byte) (p : Flags) : Result8 := if p.d then adcDecimal a m p else adcBinary a m p

/-- SBC with `P.D` = 0 (43_arithmetic.md R142). -/
def sbcBinary (a m : Byte) (p : Flags) : Result8 :=
  let t := a.toNat + (m ^^^ 0xFF#8).toNat + p.c.toNat
  let r := BitVec.ofNat 8 t
  { value := r
    flags := { p.setNZ r with v := ((a ^^^ m) &&& (a ^^^ r)).msb, c := decide (0xFF < t) } }

/-- The decimal difference of R143, over the integers; `%` of a negative number is that of its two's complement. -/
def decimalDifference (a m : Byte) (c : Bool) : Int :=
  let l : Int := (a.toNat % 16 : Int) - (m.toNat % 16 : Int) + (c.toNat : Int) - 1
  let l' : Int := if l < 0 then (l - 0x06) % 16 - 0x10 else l
  let d : Int := (a.toNat / 16 * 16 : Int) - (m.toNat / 16 * 16 : Int) + l'
  if d < 0 then d - 0x60 else d

/-- SBC with `P.D` = 1 (43_arithmetic.md R143): the four flags are those of the binary subtraction. -/
def sbcDecimal (a m : Byte) (p : Flags) : Result8 :=
  { value := BitVec.ofInt 8 (decimalDifference a m p.c), flags := (sbcBinary a m p).flags }

/-- SBC (43_arithmetic.md R142, R143). -/
def sbcFlags (a m : Byte) (p : Flags) : Result8 := if p.d then sbcDecimal a m p else sbcBinary a m p

/-- The flags after a compare of register value `r` with `m` (43_arithmetic.md R144 to R146). -/
def compareFlags (r m : Byte) (p : Flags) : Flags := { p.setNZ (r - m) with c := decide (m.toNat ≤ r.toNat) }

/-- The flags after BIT (44_logic.md R163). -/
def bitFlags (a m : Byte) (p : Flags) : Flags :=
  { p with z := (a &&& m) == 0#8, n := m.getLsbD 7, v := m.getLsbD 6 }

/-- ASL of `v` (45_shift_incdec.md R170). -/
def aslByte (v : Byte) (p : Flags) : Result8 :=
  let r := v <<< 1
  { value := r, flags := { p.setNZ r with c := v.getLsbD 7 } }

/-- LSR of `v` (45_shift_incdec.md R171). -/
def lsrByte (v : Byte) (p : Flags) : Result8 :=
  let r := v >>> 1
  { value := r, flags := { p.setNZ r with c := v.getLsbD 0 } }

/-- ROL of `v`, the old carry into bit 0 (45_shift_incdec.md R172). -/
def rolByte (v : Byte) (p : Flags) : Result8 :=
  let r := v <<< 1 ||| flagBit p.c 0
  { value := r, flags := { p.setNZ r with c := v.getLsbD 7 } }

/-- ROR of `v`, the old carry into bit 7 (45_shift_incdec.md R173). -/
def rorByte (v : Byte) (p : Flags) : Result8 :=
  let r := v >>> 1 ||| flagBit p.c 7
  { value := r, flags := { p.setNZ r with c := v.getLsbD 0 } }

/-- INC of `v` (45_shift_incdec.md R174). -/
def incByte (v : Byte) (p : Flags) : Result8 := { value := v + 1#8, flags := p.setNZ (v + 1#8) }

/-- DEC of `v` (45_shift_incdec.md R175). -/
def decByte (v : Byte) (p : Flags) : Result8 := { value := v - 1#8, flags := p.setNZ (v - 1#8) }

end Sys2Proof.Machine
end

