-- ==== Sys2Proof/Machine/Ops.lean ====
section
/-! DEFINITION. The operations every meaning is built of: the backing store in its canonical form, region lookup, bus read
and write (spec 20_memory.md R30 to R43), the bypass (R45, R46), fetch (40_step_and_addressing.md R82), push and pull (42_stack.md R130, R131),
register updates, taking an interrupt or BRK (47_flags_system.md R218, 60_exceptions.md R238) and returning from it
(R219). -/

namespace Sys2Proof.Machine

/-- What executing an instruction answers. -/
abbrev Answer := Host.Outcome State Fault Refusal

/-- Go on with `k` where `r` is a next state; a fault or a refusal stays. -/
def andThen (r : Answer) (k : State → Answer) : Answer :=
  match r with
  | .next s => k s
  | .fault f => .fault f
  | .refused q => .refused q

/-! ### The backing store -/

/-- The canonical form: addresses of the space, strictly rising, no listed byte equal to 0x00, which is what an unlisted
address reads as. `from` is the least address that may stand next. -/
def Memory.wfFrom : Memory → Nat → Bool
  | [], _ => true
  | (k, v) :: m, low => decide (low ≤ k) && decide (k < Config.spaceSize) && v != 0#8 && Memory.wfFrom m (k + 1)

/-- The canonical form of a store. -/
def Memory.wf (m : Memory) : Bool := Memory.wfFrom m 0

/-- `store[a]` (20_memory.md R30); an address that no entry names holds the zero fill of R34. -/
def Memory.read : Memory → Nat → Byte
  | [], _ => 0#8
  | (k, w) :: m, a => if a = k then w else Memory.read m a

/-- `store[a] <- v` (20_memory.md R37), keeping the canonical form. -/
def Memory.write : Memory → Nat → Byte → Memory
  | [], a, v => if v = 0#8 then [] else [(a, v)]
  | (k, w) :: m, a, v =>
    if a < k then (if v = 0#8 then (k, w) :: m else (a, v) :: (k, w) :: m)
    else if a = k then (if v = 0#8 then m else (a, v) :: m)
    else (k, w) :: Memory.write m a v

/-- `store[start + i] <- bytes[i]` for every `i` (20_memory.md R34, R46). -/
def Memory.writeList : Memory → Nat → List Byte → Memory
  | m, _, [] => m
  | m, start, v :: vs => Memory.writeList (Memory.write m start v) (start + 1) vs

/-- `store[start .. start + length - 1]` (20_memory.md R45). -/
def Memory.readList (m : Memory) : Nat → Nat → List Byte
  | _, 0 => []
  | start, length + 1 => Memory.read m start :: Memory.readList m (start + 1) length

/-! ### Register and flag updates -/

def State.setA (s : State) (v : Byte) : State := { s with a := v }
def State.setX (s : State) (v : Byte) : State := { s with x := v }
def State.setY (s : State) (v : Byte) : State := { s with y := v }
def State.setSp (s : State) (v : Byte) : State := { s with sp := v }
def State.setPc (s : State) (v : Word) : State := { s with pc := v }
def State.setP (s : State) (v : Flags) : State := { s with p := v }
def State.setStore (s : State) (m : Memory) : State := { s with store := m }
def State.setDeviceLog (s : State) (l : List DeviceEvent) : State := { s with deviceLog := l }
def State.setNmiPending (s : State) (b : Bool) : State := { s with nmiPending := b }

/-- What the step returns (70_reset_and_hazards.md R275). -/
def State.setCost (s : State) (n : Nat) : State := { s with cost := n }

/-! ### The bus -/

/-- `IDLE_VALUE`, what a bus read of an unmapped address returns (20_memory.md R38, 92_eei_decisions.md D10). -/
def idleValue : Byte := 0xFF#8

/-- The half-open interval of a region holds `a` (20_memory.md R35). -/
def covers (r : Region) (a : Nat) : Bool := decide (r.start ≤ a) && decide (a < r.start + r.length)

/-- `Region(a)` (20_memory.md R35). In a valid table at most one region covers `a`; in an invalid one, which no
construction yields, the first in list order is taken (notes/assumptions/14.md). -/
def regionAt (rs : List Region) (a : Word) : Option Region := rs.find? (fun r => covers r a.toNat)

/-- The kind of the region that holds `a`, `none` when `a` is unmapped. -/
def kindAt (s : State) (a : Word) : Option RegionKind := (regionAt s.regions a).map Sys2Proof.Region.kind

/-- Call the callback of device `id` (20_memory.md R41): it is told the full bus address and, on a write, the value. -/
def callDevice (id : Nat) (a : Word) (v : Option Byte) (s : State) : State :=
  s.setDeviceLog (.call id a v :: s.deviceLog)

/-- A byte read, and the state after the read. -/
structure BusRead where
  value : Byte
  after : State
  deriving DecidableEq, Repr

/-- `MemRead(a, 1)` (20_memory.md R36). -/
def busRead (a : Word) (s : State) : BusRead :=
  match kindAt s a with
  | none => { value := idleValue, after := s }
  | some (.device id) => { value := Config.deviceAnswer id s.deviceLog a, after := callDevice id a none s }
  | some .ram => { value := s.store.read a.toNat, after := s }
  | some .rom => { value := s.store.read a.toNat, after := s }

/-- `MemWrite(a, 1, v)` (20_memory.md R37). -/
def busWrite (a : Word) (v : Byte) (s : State) : State :=
  match kindAt s a with
  | none => s
  | some (.device id) => callDevice id a (some v) s
  | some .ram => s.setStore (s.store.write a.toNat v)
  | some .rom => s

/-- A little-endian word read, and the state after the two reads. -/
structure WordRead where
  value : Word
  after : State
  deriving DecidableEq, Repr

/-- Two bus reads, the low byte at `al` first and then the high byte at `ah` (20_memory.md R47). -/
def readWord (al ah : Word) (s : State) : WordRead :=
  let l := busRead al s
  let h := busRead ah l.after
  { value := word h.value l.value, after := h.after }

/-! ### The bypass, for the host side only -/

/-- `read_range(start, length)`: the store's bytes, no callback, refused past the end (20_memory.md R45). -/
def readRange (start length : Nat) (s : State) : Host.Outcome (List Byte) Fault Refusal :=
  if start + length ≤ Config.spaceSize then .next (s.store.readList start length) else .refused .rangePastStore

/-- `write_range(start, bytes)`: into the store whatever the region, no callback, refused past the end (20_memory.md
R46). -/
def writeRange (start : Nat) (bytes : List Byte) (s : State) : Answer :=
  if start + bytes.length ≤ Config.spaceSize then .next (s.setStore (s.store.writeList start bytes))
  else .refused .rangePastStore

/-! ### Fetch -/

/-- `Fetch()` (40_step_and_addressing.md R82). -/
def fetch (s : State) : BusRead :=
  let r := busRead s.pc s
  { value := r.value, after := r.after.setPc (s.pc + 1#16) }

/-! ### The stack -/

/-- `Push(v)` (42_stack.md R130). -/
def push (v : Byte) (s : State) : State := (busWrite (stackAddr s.sp) v s).setSp (s.sp - 1#8)

/-- `Pull()` (42_stack.md R131). -/
def pull (s : State) : BusRead := busRead (stackAddr (s.sp + 1#8)) (s.setSp (s.sp + 1#8))

/-- Push a word, high byte first, so that the low byte lies at the lower address (20_memory.md R47). -/
def pushWord (w : Word) (s : State) : State := push (lo w) (push (hi w) s)

/-- Pull a word, low byte first (46_control_flow.md R193, 47_flags_system.md R219). -/
def pullWord (s : State) : WordRead :=
  let l := pull s
  let h := pull l.after
  { value := word h.value l.value, after := h.after }

/-! ### Traps: BRK, IRQ and NMI entry, and the return -/

/-- The NMI vector's low byte (60_exceptions.md R239). -/
def nmiVector : Word := 0xFFFA#16

/-- The reset vector's low byte (60_exceptions.md R239). -/
def resetVector : Word := 0xFFFC#16

/-- The IRQ and BRK vector's low byte (60_exceptions.md R239). -/
def irqVector : Word := 0xFFFE#16

/-- Taking a trap, shared by BRK (47_flags_system.md R218) and interrupt entry (60_exceptions.md R238): push the return
address and the flags with bit 4 = `b`, set `P.I`, and go where the vector says. The three callers differ in `ret`, `b` and
`vector` only (R240). -/
def takeTrap (ret : Word) (b : Bool) (vector : Word) (s : State) : State :=
  let s1 := pushWord ret s
  let s2 := push (s1.p.pack b) s1
  let s3 := s2.setP { s2.p with i := true }
  let v := readWord vector (vector + 1#16) s3
  (v.after.setPc v.value).setCost 7

/-- Which interrupt is due (60_exceptions.md R236). -/
inductive Interrupt where
  | nmi
  | irq
  deriving DecidableEq, Repr

/-- The sampling of the lines at the start of a step: NMI before IRQ, IRQ gated by `P.I` (60_exceptions.md R236, R237);
nothing without the lines (R233). -/
def dueInterrupt (s : State) : Option Interrupt :=
  if s.hasIntLines then
    if s.nmiPending then some .nmi
    else if s.irqLine && !s.p.i then some .irq
    else none
  else none

/-- Interrupt entry (60_exceptions.md R238): the pushed `pc` is the address of the instruction not yet executed, and an
NMI clears its latch. -/
def enterInterrupt (k : Interrupt) (s : State) : State :=
  match k with
  | .nmi => takeTrap s.pc false nmiVector (s.setNmiPending false)
  | .irq => takeTrap s.pc false irqVector s

/-- Return from interrupt (47_flags_system.md R219): flags, then `pc`, with no addition. -/
def returnFromTrap (s : State) : State :=
  let f := pull s
  let w := pullWord (f.after.setP (Flags.unpack f.value))
  (w.after.setPc w.value).setCost 6

end Sys2Proof.Machine
end

