-- ==== Sys2Proof/Machine/Operands.lean ====
section
/-! DEFINITION. Every operand form of the spec: the effective addresses of 40_step_and_addressing.md R87 to R96, the operand
classes read, write and read-modify-write (R97, 45_shift_incdec.md R180), the branch template (46_control_flow.md R194), and
their cycle costs (70_reset_and_hazards.md R276). -/

namespace Sys2Proof.Machine

/-- A data operand in memory, by mode. -/
inductive MemOperand where
  | zp (b : Byte)
  | zpx (b : Byte)
  | zpy (b : Byte)
  | abs (w : Word)
  | abx (w : Word)
  | aby (w : Word)
  | izx (b : Byte)
  | izy (b : Byte)
  deriving DecidableEq, Repr

/-- The operand of a read-class instruction (R97): an immediate byte or a memory operand. -/
inductive Source where
  | imm (v : Byte)
  | mem (m : MemOperand)
  deriving DecidableEq, Repr

/-- The operand of a read-modify-write instruction (R97): the accumulator, or memory by the four modes of
45_shift_incdec.md R180. -/
inductive Target where
  | acc
  | zp (b : Byte)
  | zpx (b : Byte)
  | abs (w : Word)
  | abx (w : Word)
  deriving DecidableEq, Repr

/-- An effective address `EA`, whether a page was crossed (`px`), and the state after the pointer reads. -/
structure Resolved where
  ea : Word
  px : Bool
  after : State
  deriving DecidableEq, Repr

/-- A base address plus an unsigned index, modulo 65536, with the page-crossing condition (R91, R92, R94). -/
def indexed (base : Word) (index : Byte) (s : State) : Resolved :=
  let ea := base + index.setWidth 16
  { ea := ea, px := hi ea != hi base, after := s }

/-- The pointer at zero-page address `z`, both bytes in the zero page (R93, R94). -/
def zeroPagePointer (z : Byte) (s : State) : WordRead := readWord (zeroPage z) (zeroPage (z + 1#8)) s

/-- The effective address of a memory operand (R87 to R94). -/
def resolve (m : MemOperand) (s : State) : Resolved :=
  match m with
  | .zp b => { ea := zeroPage b, px := false, after := s }
  | .zpx b => { ea := zeroPage (b + s.x), px := false, after := s }
  | .zpy b => { ea := zeroPage (b + s.y), px := false, after := s }
  | .abs w => { ea := w, px := false, after := s }
  | .abx w => indexed w s.x s
  | .aby w => indexed w s.y s
  | .izx b =>
    let r := zeroPagePointer (b + s.x) s
    { ea := r.value, px := false, after := r.after }
  | .izy b =>
    let r := zeroPagePointer b s
    indexed r.value s.y r.after

/-- The target of JMP indirect: the pointer's high byte is read without carry into the page (R96, 46_control_flow.md
R191). -/
def indirectTarget (w : Word) (s : State) : WordRead := readWord w (word (hi w) (lo w + 1#8)) s

/-! ### Costs (70_reset_and_hazards.md R276) -/

/-- The cost of a read-class instruction; `px` adds 1 in ABX, ABY and IZY. -/
def readCost (o : Source) (px : Bool) : Nat :=
  match o with
  | .imm _ => 2
  | .mem (.zp _) => 3
  | .mem (.zpx _) | .mem (.zpy _) => 4
  | .mem (.abs _) => 4
  | .mem (.abx _) | .mem (.aby _) => 4 + px.toNat
  | .mem (.izx _) => 6
  | .mem (.izy _) => 5 + px.toNat

/-- The cost of a write-class instruction. -/
def writeCost (m : MemOperand) : Nat :=
  match m with
  | .zp _ => 3
  | .zpx _ | .zpy _ => 4
  | .abs _ => 4
  | .abx _ | .aby _ => 5
  | .izx _ => 6
  | .izy _ => 6

/-- The cost of a read-modify-write instruction; a page crossing adds nothing (45_shift_incdec.md R180). -/
def rmwCost (t : Target) : Nat :=
  match t with
  | .acc => 2
  | .zp _ => 5
  | .zpx _ => 6
  | .abs _ => 6
  | .abx _ => 7

/-! ### The operand classes (R97) -/

/-- The operand byte `M` of a read-class instruction, what the instruction costs, and the state after the reads. -/
structure OperandRead where
  value : Byte
  cost : Nat
  after : State
  deriving DecidableEq, Repr

/-- `M`: the immediate byte, or one bus read at the effective address (R86, R97). -/
def readOperand (o : Source) (s : State) : OperandRead :=
  match o with
  | .imm v => { value := v, cost := readCost o false, after := s }
  | .mem m =>
    let e := resolve m s
    let r := busRead e.ea e.after
    { value := r.value, cost := readCost o e.px, after := r.after }

/-- A write-class instruction: one bus write of `v` at the effective address (R97). -/
def storeOperand (m : MemOperand) (v : Byte) (s : State) : State :=
  let e := resolve m s
  (busWrite e.ea v e.after).setCost (writeCost m)

/-- The read-modify-write sequence on memory (45_shift_incdec.md R180): one read and then one write at the same address,
with the function `f` from the operand byte and the flags to the result byte and the flags; the flags are set whether or not
the write takes effect. -/
def modifyMemory (m : MemOperand) (f : Byte → Flags → Result8) (s : State) : State :=
  let e := resolve m s
  let v := busRead e.ea e.after
  let r := f v.value s.p
  busWrite e.ea r.value (v.after.setP r.flags)

/-- The same on the accumulator, with no bus access (45_shift_incdec.md R180). -/
def modifyAccumulator (f : Byte → Flags → Result8) (s : State) : State :=
  let r := f s.a s.p
  (s.setA r.value).setP r.flags

/-- A read-modify-write instruction with its cost. -/
def modifyOperand (t : Target) (f : Byte → Flags → Result8) (s : State) : State :=
  match t with
  | .acc => (modifyAccumulator f s).setCost (rmwCost t)
  | .zp b => (modifyMemory (.zp b) f s).setCost (rmwCost t)
  | .zpx b => (modifyMemory (.zpx b) f s).setCost (rmwCost t)
  | .abs w => (modifyMemory (.abs w) f s).setCost (rmwCost t)
  | .abx w => (modifyMemory (.abx w) f s).setCost (rmwCost t)

/-! ### Branches -/

/-- The target of a branch: `pc` after the fetch of the offset, plus the signed offset (R95). -/
def branchTarget (off : Byte) (s : State) : Word := s.pc + sext off

/-- The branch template (46_control_flow.md R194): 2 when not taken, 3 when taken, 4 when taken to another page. -/
def branch (cond : Bool) (off : Byte) (s : State) : State :=
  let target := branchTarget off s
  if cond then (s.setPc target).setCost (3 + (hi target != hi s.pc).toNat) else s.setCost 2

end Sys2Proof.Machine
end

