-- ==== Sys2Proof/Machine/Arithmetic.lean ====
section
/-! DEFINITION. Arithmetic and compare instructions (spec 43_arithmetic.md R140 to R147). -/

namespace Sys2Proof.Machine

/-- An instruction that computes `A` and the flags from `A`, `M` and the flags. -/
def accumulate (f : Byte → Byte → Flags → Result8) (o : Source) (s : State) : State :=
  let r := readOperand o s
  let t := f r.after.a r.value r.after.p
  ((r.after.setA t.value).setP t.flags).setCost r.cost

/-- ADC, binary when `P.D` = 0 and decimal when `P.D` = 1 (R140, R141). -/
def addWithCarry (o : Source) (s : State) : State := accumulate adcFlags o s

/-- ADC #v (R140) -/
def execAdcImm (v : Byte) (s : State) : Answer := .next (addWithCarry (.imm v) s)
/-- ADC b (R140) -/
def execAdcZp (b : Byte) (s : State) : Answer := .next (addWithCarry (.mem (.zp b)) s)
/-- ADC b,X (R140) -/
def execAdcZpx (b : Byte) (s : State) : Answer := .next (addWithCarry (.mem (.zpx b)) s)
/-- ADC w (R140) -/
def execAdcAbs (w : Word) (s : State) : Answer := .next (addWithCarry (.mem (.abs w)) s)
/-- ADC w,X (R140) -/
def execAdcAbx (w : Word) (s : State) : Answer := .next (addWithCarry (.mem (.abx w)) s)
/-- ADC w,Y (R140) -/
def execAdcAby (w : Word) (s : State) : Answer := .next (addWithCarry (.mem (.aby w)) s)
/-- ADC (b,X) (R140) -/
def execAdcIzx (b : Byte) (s : State) : Answer := .next (addWithCarry (.mem (.izx b)) s)
/-- ADC (b),Y (R140) -/
def execAdcIzy (b : Byte) (s : State) : Answer := .next (addWithCarry (.mem (.izy b)) s)

/-- SBC, binary when `P.D` = 0 and decimal when `P.D` = 1 (R142, R143). -/
def subtractWithBorrow (o : Source) (s : State) : State := accumulate sbcFlags o s

/-- SBC #v (R142) -/
def execSbcImm (v : Byte) (s : State) : Answer := .next (subtractWithBorrow (.imm v) s)
/-- SBC b (R142) -/
def execSbcZp (b : Byte) (s : State) : Answer := .next (subtractWithBorrow (.mem (.zp b)) s)
/-- SBC b,X (R142) -/
def execSbcZpx (b : Byte) (s : State) : Answer := .next (subtractWithBorrow (.mem (.zpx b)) s)
/-- SBC w (R142) -/
def execSbcAbs (w : Word) (s : State) : Answer := .next (subtractWithBorrow (.mem (.abs w)) s)
/-- SBC w,X (R142) -/
def execSbcAbx (w : Word) (s : State) : Answer := .next (subtractWithBorrow (.mem (.abx w)) s)
/-- SBC w,Y (R142) -/
def execSbcAby (w : Word) (s : State) : Answer := .next (subtractWithBorrow (.mem (.aby w)) s)
/-- SBC (b,X) (R142) -/
def execSbcIzx (b : Byte) (s : State) : Answer := .next (subtractWithBorrow (.mem (.izx b)) s)
/-- SBC (b),Y (R142) -/
def execSbcIzy (b : Byte) (s : State) : Answer := .next (subtractWithBorrow (.mem (.izy b)) s)

/-- Compare `A` with `M`: N, Z and C, nothing else (R144). -/
def compareA (o : Source) (s : State) : State :=
  let r := readOperand o s
  (r.after.setP (compareFlags r.after.a r.value r.after.p)).setCost r.cost

/-- CMP #v (R144) -/
def execCmpImm (v : Byte) (s : State) : Answer := .next (compareA (.imm v) s)
/-- CMP b (R144) -/
def execCmpZp (b : Byte) (s : State) : Answer := .next (compareA (.mem (.zp b)) s)
/-- CMP b,X (R144) -/
def execCmpZpx (b : Byte) (s : State) : Answer := .next (compareA (.mem (.zpx b)) s)
/-- CMP w (R144) -/
def execCmpAbs (w : Word) (s : State) : Answer := .next (compareA (.mem (.abs w)) s)
/-- CMP w,X (R144) -/
def execCmpAbx (w : Word) (s : State) : Answer := .next (compareA (.mem (.abx w)) s)
/-- CMP w,Y (R144) -/
def execCmpAby (w : Word) (s : State) : Answer := .next (compareA (.mem (.aby w)) s)
/-- CMP (b,X) (R144) -/
def execCmpIzx (b : Byte) (s : State) : Answer := .next (compareA (.mem (.izx b)) s)
/-- CMP (b),Y (R144) -/
def execCmpIzy (b : Byte) (s : State) : Answer := .next (compareA (.mem (.izy b)) s)

/-- Compare `X` with `M`: N, Z and C, nothing else (R145). -/
def compareX (o : Source) (s : State) : State :=
  let r := readOperand o s
  (r.after.setP (compareFlags r.after.x r.value r.after.p)).setCost r.cost

/-- CPX #v (R145) -/
def execCpxImm (v : Byte) (s : State) : Answer := .next (compareX (.imm v) s)
/-- CPX b (R145) -/
def execCpxZp (b : Byte) (s : State) : Answer := .next (compareX (.mem (.zp b)) s)
/-- CPX w (R145) -/
def execCpxAbs (w : Word) (s : State) : Answer := .next (compareX (.mem (.abs w)) s)

/-- Compare `Y` with `M`: N, Z and C, nothing else (R146). -/
def compareY (o : Source) (s : State) : State :=
  let r := readOperand o s
  (r.after.setP (compareFlags r.after.y r.value r.after.p)).setCost r.cost

/-- CPY #v (R146) -/
def execCpyImm (v : Byte) (s : State) : Answer := .next (compareY (.imm v) s)
/-- CPY b (R146) -/
def execCpyZp (b : Byte) (s : State) : Answer := .next (compareY (.mem (.zp b)) s)
/-- CPY w (R146) -/
def execCpyAbs (w : Word) (s : State) : Answer := .next (compareY (.mem (.abs w)) s)

end Sys2Proof.Machine
end

