-- ==== Sys2Proof/Machine/Control.lean ====
section
/-! DEFINITION. Control-transfer instructions (spec 46_control_flow.md R190 to R203). -/

namespace Sys2Proof.Machine

/-- JMP w (R190). -/
def execJmpAbs (w : Word) (s : State) : Answer := .next ((s.setPc w).setCost 3)

/-- `pc <- EA` by IND (R191). -/
def jumpIndirect (w : Word) (s : State) : State :=
  let t := indirectTarget w s
  (t.after.setPc t.value).setCost 5

/-- JMP (w) (R191). -/
def execJmpInd (w : Word) (s : State) : Answer := .next (jumpIndirect w s)

/-- JSR: both operand bytes are fetched, then the address of the instruction's last byte is pushed (R192). -/
def jumpSubroutine (w : Word) (s : State) : State := ((pushWord (s.pc - 1#16) s).setPc w).setCost 6

/-- JSR w (R192). -/
def execJsr (w : Word) (s : State) : Answer := .next (jumpSubroutine w s)

/-- RTS: the pulled address plus 1 (R193). -/
def returnSubroutine (s : State) : State :=
  let r := pullWord s
  (r.after.setPc (r.value + 1#16)).setCost 6

/-- RTS (R193). -/
def execRts (s : State) : Answer := .next (returnSubroutine s)

/-- BCC: branch if C = 0 (R195, R194). -/
def execBcc (off : Byte) (s : State) : Answer := .next (branch (!s.p.c) off s)

/-- BCS: branch if C = 1 (R196, R194). -/
def execBcs (off : Byte) (s : State) : Answer := .next (branch s.p.c off s)

/-- BEQ: branch if Z = 1 (R197, R194). -/
def execBeq (off : Byte) (s : State) : Answer := .next (branch s.p.z off s)

/-- BNE: branch if Z = 0 (R198, R194). -/
def execBne (off : Byte) (s : State) : Answer := .next (branch (!s.p.z) off s)

/-- BMI: branch if N = 1 (R199, R194). -/
def execBmi (off : Byte) (s : State) : Answer := .next (branch s.p.n off s)

/-- BPL: branch if N = 0 (R200, R194). -/
def execBpl (off : Byte) (s : State) : Answer := .next (branch (!s.p.n) off s)

/-- BVC: branch if V = 0 (R201, R194). -/
def execBvc (off : Byte) (s : State) : Answer := .next (branch (!s.p.v) off s)

/-- BVS: branch if V = 1 (R202, R194). -/
def execBvs (off : Byte) (s : State) : Answer := .next (branch s.p.v off s)

end Sys2Proof.Machine
end

