-- ==== Sys2Proof/Machine/LoadStore.lean ====
section
/-! DEFINITION. Loads, stores and register transfers (spec 41_load_store_transfer.md R110 to R121). -/

namespace Sys2Proof.Machine

/-- `A <- M; SetNZ(A)` (R110). -/
def loadA (o : Source) (s : State) : State :=
  let r := readOperand o s
  ((r.after.setA r.value).setP (r.after.p.setNZ r.value)).setCost r.cost

/-- LDA #v (R110) -/
def execLdaImm (v : Byte) (s : State) : Answer := .next (loadA (.imm v) s)
/-- LDA b (R110) -/
def execLdaZp (b : Byte) (s : State) : Answer := .next (loadA (.mem (.zp b)) s)
/-- LDA b,X (R110) -/
def execLdaZpx (b : Byte) (s : State) : Answer := .next (loadA (.mem (.zpx b)) s)
/-- LDA w (R110) -/
def execLdaAbs (w : Word) (s : State) : Answer := .next (loadA (.mem (.abs w)) s)
/-- LDA w,X (R110) -/
def execLdaAbx (w : Word) (s : State) : Answer := .next (loadA (.mem (.abx w)) s)
/-- LDA w,Y (R110) -/
def execLdaAby (w : Word) (s : State) : Answer := .next (loadA (.mem (.aby w)) s)
/-- LDA (b,X) (R110) -/
def execLdaIzx (b : Byte) (s : State) : Answer := .next (loadA (.mem (.izx b)) s)
/-- LDA (b),Y (R110) -/
def execLdaIzy (b : Byte) (s : State) : Answer := .next (loadA (.mem (.izy b)) s)

/-- `X <- M; SetNZ(X)` (R111). -/
def loadX (o : Source) (s : State) : State :=
  let r := readOperand o s
  ((r.after.setX r.value).setP (r.after.p.setNZ r.value)).setCost r.cost

/-- LDX #v (R111) -/
def execLdxImm (v : Byte) (s : State) : Answer := .next (loadX (.imm v) s)
/-- LDX b (R111) -/
def execLdxZp (b : Byte) (s : State) : Answer := .next (loadX (.mem (.zp b)) s)
/-- LDX b,Y (R111) -/
def execLdxZpy (b : Byte) (s : State) : Answer := .next (loadX (.mem (.zpy b)) s)
/-- LDX w (R111) -/
def execLdxAbs (w : Word) (s : State) : Answer := .next (loadX (.mem (.abs w)) s)
/-- LDX w,Y (R111) -/
def execLdxAby (w : Word) (s : State) : Answer := .next (loadX (.mem (.aby w)) s)

/-- `Y <- M; SetNZ(Y)` (R112). -/
def loadY (o : Source) (s : State) : State :=
  let r := readOperand o s
  ((r.after.setY r.value).setP (r.after.p.setNZ r.value)).setCost r.cost

/-- LDY #v (R112) -/
def execLdyImm (v : Byte) (s : State) : Answer := .next (loadY (.imm v) s)
/-- LDY b (R112) -/
def execLdyZp (b : Byte) (s : State) : Answer := .next (loadY (.mem (.zp b)) s)
/-- LDY b,X (R112) -/
def execLdyZpx (b : Byte) (s : State) : Answer := .next (loadY (.mem (.zpx b)) s)
/-- LDY w (R112) -/
def execLdyAbs (w : Word) (s : State) : Answer := .next (loadY (.mem (.abs w)) s)
/-- LDY w,X (R112) -/
def execLdyAbx (w : Word) (s : State) : Answer := .next (loadY (.mem (.abx w)) s)

/-- `MemWrite(EA, 1, A)` (R113). -/
def storeA (m : MemOperand) (s : State) : State := storeOperand m s.a s

/-- STA b (R113) -/
def execStaZp (b : Byte) (s : State) : Answer := .next (storeA (.zp b) s)
/-- STA b,X (R113) -/
def execStaZpx (b : Byte) (s : State) : Answer := .next (storeA (.zpx b) s)
/-- STA w (R113) -/
def execStaAbs (w : Word) (s : State) : Answer := .next (storeA (.abs w) s)
/-- STA w,X (R113) -/
def execStaAbx (w : Word) (s : State) : Answer := .next (storeA (.abx w) s)
/-- STA w,Y (R113) -/
def execStaAby (w : Word) (s : State) : Answer := .next (storeA (.aby w) s)
/-- STA (b,X) (R113) -/
def execStaIzx (b : Byte) (s : State) : Answer := .next (storeA (.izx b) s)
/-- STA (b),Y (R113) -/
def execStaIzy (b : Byte) (s : State) : Answer := .next (storeA (.izy b) s)

/-- `MemWrite(EA, 1, X)` (R114). -/
def storeX (m : MemOperand) (s : State) : State := storeOperand m s.x s

/-- STX b (R114) -/
def execStxZp (b : Byte) (s : State) : Answer := .next (storeX (.zp b) s)
/-- STX b,Y (R114) -/
def execStxZpy (b : Byte) (s : State) : Answer := .next (storeX (.zpy b) s)
/-- STX w (R114) -/
def execStxAbs (w : Word) (s : State) : Answer := .next (storeX (.abs w) s)

/-- `MemWrite(EA, 1, Y)` (R115). -/
def storeY (m : MemOperand) (s : State) : State := storeOperand m s.y s

/-- STY b (R115) -/
def execStyZp (b : Byte) (s : State) : Answer := .next (storeY (.zp b) s)
/-- STY b,X (R115) -/
def execStyZpx (b : Byte) (s : State) : Answer := .next (storeY (.zpx b) s)
/-- STY w (R115) -/
def execStyAbs (w : Word) (s : State) : Answer := .next (storeY (.abs w) s)

/-- TAX: `X <- A; SetNZ(X)` (R116). -/
def execTax (s : State) : Answer := .next (((s.setX s.a).setP (s.p.setNZ s.a)).setCost 2)

/-- TAY: `Y <- A; SetNZ(Y)` (R117). -/
def execTay (s : State) : Answer := .next (((s.setY s.a).setP (s.p.setNZ s.a)).setCost 2)

/-- TXA: `A <- X; SetNZ(A)` (R118). -/
def execTxa (s : State) : Answer := .next (((s.setA s.x).setP (s.p.setNZ s.x)).setCost 2)

/-- TYA: `A <- Y; SetNZ(A)` (R119). -/
def execTya (s : State) : Answer := .next (((s.setA s.y).setP (s.p.setNZ s.y)).setCost 2)

/-- TSX: `X <- S; SetNZ(X)` (R120). -/
def execTsx (s : State) : Answer := .next (((s.setX s.sp).setP (s.p.setNZ s.sp)).setCost 2)

/-- TXS: `S <- X`, no flag (R121). -/
def execTxs (s : State) : Answer := .next ((s.setSp s.x).setCost 2)

end Sys2Proof.Machine
end

