-- ==== Sys2Proof/Machine/Logic.lean ====
section
/-! DEFINITION. Logic and bit-test instructions (spec 44_logic.md R160 to R163). -/

namespace Sys2Proof.Machine

/-- A logic instruction: `A <- f(A, M); SetNZ(A)` (R160 to R162). -/
def logicA (f : Byte → Byte → Byte) (o : Source) (s : State) : State :=
  let r := readOperand o s
  let v := f r.after.a r.value
  ((r.after.setA v).setP (r.after.p.setNZ v)).setCost r.cost

/-- `A <- A & M` (R160). -/
def andA (o : Source) (s : State) : State := logicA (fun a m => a &&& m) o s

/-- AND #v (R160) -/
def execAndImm (v : Byte) (s : State) : Answer := .next (andA (.imm v) s)
/-- AND b (R160) -/
def execAndZp (b : Byte) (s : State) : Answer := .next (andA (.mem (.zp b)) s)
/-- AND b,X (R160) -/
def execAndZpx (b : Byte) (s : State) : Answer := .next (andA (.mem (.zpx b)) s)
/-- AND w (R160) -/
def execAndAbs (w : Word) (s : State) : Answer := .next (andA (.mem (.abs w)) s)
/-- AND w,X (R160) -/
def execAndAbx (w : Word) (s : State) : Answer := .next (andA (.mem (.abx w)) s)
/-- AND w,Y (R160) -/
def execAndAby (w : Word) (s : State) : Answer := .next (andA (.mem (.aby w)) s)
/-- AND (b,X) (R160) -/
def execAndIzx (b : Byte) (s : State) : Answer := .next (andA (.mem (.izx b)) s)
/-- AND (b),Y (R160) -/
def execAndIzy (b : Byte) (s : State) : Answer := .next (andA (.mem (.izy b)) s)

/-- `A <- A | M` (R161). -/
def orA (o : Source) (s : State) : State := logicA (fun a m => a ||| m) o s

/-- ORA #v (R161) -/
def execOraImm (v : Byte) (s : State) : Answer := .next (orA (.imm v) s)
/-- ORA b (R161) -/
def execOraZp (b : Byte) (s : State) : Answer := .next (orA (.mem (.zp b)) s)
/-- ORA b,X (R161) -/
def execOraZpx (b : Byte) (s : State) : Answer := .next (orA (.mem (.zpx b)) s)
/-- ORA w (R161) -/
def execOraAbs (w : Word) (s : State) : Answer := .next (orA (.mem (.abs w)) s)
/-- ORA w,X (R161) -/
def execOraAbx (w : Word) (s : State) : Answer := .next (orA (.mem (.abx w)) s)
/-- ORA w,Y (R161) -/
def execOraAby (w : Word) (s : State) : Answer := .next (orA (.mem (.aby w)) s)
/-- ORA (b,X) (R161) -/
def execOraIzx (b : Byte) (s : State) : Answer := .next (orA (.mem (.izx b)) s)
/-- ORA (b),Y (R161) -/
def execOraIzy (b : Byte) (s : State) : Answer := .next (orA (.mem (.izy b)) s)

/-- `A <- A ^ M` (R162). -/
def eorA (o : Source) (s : State) : State := logicA (fun a m => a ^^^ m) o s

/-- EOR #v (R162) -/
def execEorImm (v : Byte) (s : State) : Answer := .next (eorA (.imm v) s)
/-- EOR b (R162) -/
def execEorZp (b : Byte) (s : State) : Answer := .next (eorA (.mem (.zp b)) s)
/-- EOR b,X (R162) -/
def execEorZpx (b : Byte) (s : State) : Answer := .next (eorA (.mem (.zpx b)) s)
/-- EOR w (R162) -/
def execEorAbs (w : Word) (s : State) : Answer := .next (eorA (.mem (.abs w)) s)
/-- EOR w,X (R162) -/
def execEorAbx (w : Word) (s : State) : Answer := .next (eorA (.mem (.abx w)) s)
/-- EOR w,Y (R162) -/
def execEorAby (w : Word) (s : State) : Answer := .next (eorA (.mem (.aby w)) s)
/-- EOR (b,X) (R162) -/
def execEorIzx (b : Byte) (s : State) : Answer := .next (eorA (.mem (.izx b)) s)
/-- EOR (b),Y (R162) -/
def execEorIzy (b : Byte) (s : State) : Answer := .next (eorA (.mem (.izy b)) s)

/-- BIT: Z from `A & M`, N and V from `M`, `A` unchanged (R163). -/
def bitTest (o : Source) (s : State) : State :=
  let r := readOperand o s
  (r.after.setP (bitFlags r.after.a r.value r.after.p)).setCost r.cost

/-- BIT b (R163) -/
def execBitZp (b : Byte) (s : State) : Answer := .next (bitTest (.mem (.zp b)) s)
/-- BIT w (R163) -/
def execBitAbs (w : Word) (s : State) : Answer := .next (bitTest (.mem (.abs w)) s)

end Sys2Proof.Machine
end

