-- ==== Sys2Proof/Machine/ShiftIncDec.lean ====
section
/-! DEFINITION. Shifts, rotates, increments and decrements (spec 45_shift_incdec.md R170 to R180). -/

namespace Sys2Proof.Machine

/-- Arithmetic shift left (R170, R180). -/
def shiftLeft (t : Target) (s : State) : State := modifyOperand t aslByte s

/-- ASL A (R170) -/
def execAslAcc (s : State) : Answer := .next (shiftLeft .acc s)
/-- ASL b (R170) -/
def execAslZp (b : Byte) (s : State) : Answer := .next (shiftLeft (.zp b) s)
/-- ASL b,X (R170) -/
def execAslZpx (b : Byte) (s : State) : Answer := .next (shiftLeft (.zpx b) s)
/-- ASL w (R170) -/
def execAslAbs (w : Word) (s : State) : Answer := .next (shiftLeft (.abs w) s)
/-- ASL w,X (R170) -/
def execAslAbx (w : Word) (s : State) : Answer := .next (shiftLeft (.abx w) s)

/-- Logical shift right (R171, R180). -/
def shiftRight (t : Target) (s : State) : State := modifyOperand t lsrByte s

/-- LSR A (R171) -/
def execLsrAcc (s : State) : Answer := .next (shiftRight .acc s)
/-- LSR b (R171) -/
def execLsrZp (b : Byte) (s : State) : Answer := .next (shiftRight (.zp b) s)
/-- LSR b,X (R171) -/
def execLsrZpx (b : Byte) (s : State) : Answer := .next (shiftRight (.zpx b) s)
/-- LSR w (R171) -/
def execLsrAbs (w : Word) (s : State) : Answer := .next (shiftRight (.abs w) s)
/-- LSR w,X (R171) -/
def execLsrAbx (w : Word) (s : State) : Answer := .next (shiftRight (.abx w) s)

/-- Rotate left through carry (R172, R180). -/
def rotateLeft (t : Target) (s : State) : State := modifyOperand t rolByte s

/-- ROL A (R172) -/
def execRolAcc (s : State) : Answer := .next (rotateLeft .acc s)
/-- ROL b (R172) -/
def execRolZp (b : Byte) (s : State) : Answer := .next (rotateLeft (.zp b) s)
/-- ROL b,X (R172) -/
def execRolZpx (b : Byte) (s : State) : Answer := .next (rotateLeft (.zpx b) s)
/-- ROL w (R172) -/
def execRolAbs (w : Word) (s : State) : Answer := .next (rotateLeft (.abs w) s)
/-- ROL w,X (R172) -/
def execRolAbx (w : Word) (s : State) : Answer := .next (rotateLeft (.abx w) s)

/-- Rotate right through carry (R173, R180). -/
def rotateRight (t : Target) (s : State) : State := modifyOperand t rorByte s

/-- ROR A (R173) -/
def execRorAcc (s : State) : Answer := .next (rotateRight .acc s)
/-- ROR b (R173) -/
def execRorZp (b : Byte) (s : State) : Answer := .next (rotateRight (.zp b) s)
/-- ROR b,X (R173) -/
def execRorZpx (b : Byte) (s : State) : Answer := .next (rotateRight (.zpx b) s)
/-- ROR w (R173) -/
def execRorAbs (w : Word) (s : State) : Answer := .next (rotateRight (.abs w) s)
/-- ROR w,X (R173) -/
def execRorAbx (w : Word) (s : State) : Answer := .next (rotateRight (.abx w) s)

/-- Increment memory (R174, R180). -/
def increment (t : Target) (s : State) : State := modifyOperand t incByte s

/-- INC b (R174) -/
def execIncZp (b : Byte) (s : State) : Answer := .next (increment (.zp b) s)
/-- INC b,X (R174) -/
def execIncZpx (b : Byte) (s : State) : Answer := .next (increment (.zpx b) s)
/-- INC w (R174) -/
def execIncAbs (w : Word) (s : State) : Answer := .next (increment (.abs w) s)
/-- INC w,X (R174) -/
def execIncAbx (w : Word) (s : State) : Answer := .next (increment (.abx w) s)

/-- Decrement memory (R175, R180). -/
def decrement (t : Target) (s : State) : State := modifyOperand t decByte s

/-- DEC b (R175) -/
def execDecZp (b : Byte) (s : State) : Answer := .next (decrement (.zp b) s)
/-- DEC b,X (R175) -/
def execDecZpx (b : Byte) (s : State) : Answer := .next (decrement (.zpx b) s)
/-- DEC w (R175) -/
def execDecAbs (w : Word) (s : State) : Answer := .next (decrement (.abs w) s)
/-- DEC w,X (R175) -/
def execDecAbx (w : Word) (s : State) : Answer := .next (decrement (.abx w) s)

/-- INX: `X <- X +8 1; SetNZ(X)` (R176). -/
def execInx (s : State) : Answer :=
  .next (((s.setX (s.x + 1#8)).setP (s.p.setNZ (s.x + 1#8))).setCost 2)

/-- INY: `Y <- Y +8 1; SetNZ(Y)` (R177). -/
def execIny (s : State) : Answer :=
  .next (((s.setY (s.y + 1#8)).setP (s.p.setNZ (s.y + 1#8))).setCost 2)

/-- DEX: `X <- X -8 1; SetNZ(X)` (R178). -/
def execDex (s : State) : Answer :=
  .next (((s.setX (s.x - 1#8)).setP (s.p.setNZ (s.x - 1#8))).setCost 2)

/-- DEY: `Y <- Y -8 1; SetNZ(Y)` (R179). -/
def execDey (s : State) : Answer :=
  .next (((s.setY (s.y - 1#8)).setP (s.p.setNZ (s.y - 1#8))).setCost 2)

end Sys2Proof.Machine
end

