-- ==== Sys2Proof/Machine/Stack.lean ====
section
/-! DEFINITION. The stack instructions (spec 42_stack.md R132 to R136). -/

namespace Sys2Proof.Machine

/-- PHA: `Push(A)` (R132). -/
def execPha (s : State) : Answer := .next ((push s.a s).setCost 3)

/-- PHP: `Push(PackP(1))` (R133). -/
def execPhp (s : State) : Answer := .next ((push (s.p.pack true) s).setCost 3)

/-- `A <- Pull(); SetNZ(A)` (R134). -/
def pullA (s : State) : State :=
  let r := pull s
  (r.after.setA r.value).setP (r.after.p.setNZ r.value)

/-- PLA (R134). -/
def execPla (s : State) : Answer := .next ((pullA s).setCost 4)

/-- `UnpackP(Pull())` (R135). -/
def pullP (s : State) : State :=
  let r := pull s
  r.after.setP (Flags.unpack r.value)

/-- PLP (R135). -/
def execPlp (s : State) : Answer := .next ((pullP s).setCost 4)

end Sys2Proof.Machine
end

