-- ==== Sys2Proof/Machine/System.lean ====
section
/-! DEFINITION. Flag, no-operation, break, return and illegal-opcode instructions (spec 47_flags_system.md R210 to R221). -/

namespace Sys2Proof.Machine

/-- CLC: `P.C <- 0` (R210). -/
def execClc (s : State) : Answer := .next ((s.setP { s.p with c := false }).setCost 2)

/-- SEC: `P.C <- 1` (R211). -/
def execSec (s : State) : Answer := .next ((s.setP { s.p with c := true }).setCost 2)

/-- CLI: `P.I <- 0` (R212). -/
def execCli (s : State) : Answer := .next ((s.setP { s.p with i := false }).setCost 2)

/-- SEI: `P.I <- 1` (R213). -/
def execSei (s : State) : Answer := .next ((s.setP { s.p with i := true }).setCost 2)

/-- CLD: `P.D <- 0` (R214). -/
def execCld (s : State) : Answer := .next ((s.setP { s.p with d := false }).setCost 2)

/-- SED: `P.D <- 1` (R215). -/
def execSed (s : State) : Answer := .next ((s.setP { s.p with d := true }).setCost 2)

/-- CLV: `P.V <- 0` (R216). -/
def execClv (s : State) : Answer := .next ((s.setP { s.p with v := false }).setCost 2)

/-- NOP: nothing (R217). -/
def execNop (s : State) : Answer := .next (s.setCost 2)

/-- BRK: the trap of `takeTrap` with bit 4 = 1 and the address of BRK plus 2; at this point `pc` is the address of BRK
plus 1, and the byte there is not read (R218). -/
def execBrk (s : State) : Answer := .next (takeTrap (s.pc + 1#16) true irqVector s)

/-- RTI (R219). -/
def execRti (s : State) : Answer := .next (returnFromTrap s)

/-- An illegal opcode, any of the 105 bytes: a one-byte no-op of cost 2 (R220). -/
def execIll (_op : Byte) (s : State) : Answer := .next (s.setCost 2)

end Sys2Proof.Machine
end

