-- ==== Sys2Proof/Syntax.lean ====
section
/-! DEFINITION. The instructions as syntax (spec 30_encoding.md R60 to R67): one constructor of `Instr` per documented row
of spec/opcode_table.json (mnemonic and addressing mode), and one, `ill`, for the 105 rows of mnemonic ILL, which carries
its opcode byte (R66; notes/assumptions/11.md). An operand is the operand byte or the operand word as R61 gives it. -/

namespace Sys2Proof

/-- The 56 mnemonics of 30_encoding.md R64, and ILL for the illegal opcodes (R67). -/
inductive Mnemonic where
  | ADC | AND | ASL | BCC | BCS | BEQ | BIT | BMI | BNE | BPL | BRK | BVC | BVS | CLC | CLD | CLI | CLV | CMP
  | CPX | CPY | DEC | DEX | DEY | EOR | INC | INX | INY | JMP | JSR | LDA | LDX | LDY | LSR | NOP | ORA | PHA
  | PHP | PLA | PLP | ROL | ROR | RTI | RTS | SBC | SEC | SED | SEI | STA | STX | STY | TAX | TAY | TSX | TXA
  | TXS | TYA | ILL
  deriving DecidableEq, Repr

/-- The thirteen addressing modes of 30_encoding.md R61. -/
inductive Mode where
  | IMP | ACC | IMM | ZP | ZPX | ZPY | ABS | ABX | ABY | IND | IZX | IZY | REL
  deriving DecidableEq, Repr

/-- One instruction (30_encoding.md R63). `v` is the immediate byte, `b` a zero-page operand byte, `w` the 16-bit operand
`word(b2, b1)`, `off` the signed offset byte of a branch, `op` an illegal opcode byte. -/
inductive Instr where
  | adcImm (v : Byte) | adcZp (b : Byte) | adcZpx (b : Byte) | adcAbs (w : Word) | adcAbx (w : Word)
  | adcAby (w : Word) | adcIzx (b : Byte) | adcIzy (b : Byte)
  | andImm (v : Byte) | andZp (b : Byte) | andZpx (b : Byte) | andAbs (w : Word) | andAbx (w : Word)
  | andAby (w : Word) | andIzx (b : Byte) | andIzy (b : Byte)
  | aslAcc | aslZp (b : Byte) | aslZpx (b : Byte) | aslAbs (w : Word) | aslAbx (w : Word)
  | bcc (off : Byte)
  | bcs (off : Byte)
  | beq (off : Byte)
  | bitZp (b : Byte) | bitAbs (w : Word)
  | bmi (off : Byte)
  | bne (off : Byte)
  | bpl (off : Byte)
  | brk
  | bvc (off : Byte)
  | bvs (off : Byte)
  | clc
  | cld
  | cli
  | clv
  | cmpImm (v : Byte) | cmpZp (b : Byte) | cmpZpx (b : Byte) | cmpAbs (w : Word) | cmpAbx (w : Word)
  | cmpAby (w : Word) | cmpIzx (b : Byte) | cmpIzy (b : Byte)
  | cpxImm (v : Byte) | cpxZp (b : Byte) | cpxAbs (w : Word)
  | cpyImm (v : Byte) | cpyZp (b : Byte) | cpyAbs (w : Word)
  | decZp (b : Byte) | decZpx (b : Byte) | decAbs (w : Word) | decAbx (w : Word)
  | dex
  | dey
  | eorImm (v : Byte) | eorZp (b : Byte) | eorZpx (b : Byte) | eorAbs (w : Word) | eorAbx (w : Word)
  | eorAby (w : Word) | eorIzx (b : Byte) | eorIzy (b : Byte)
  | incZp (b : Byte) | incZpx (b : Byte) | incAbs (w : Word) | incAbx (w : Word)
  | inx
  | iny
  | jmpAbs (w : Word) | jmpInd (w : Word)
  | jsr (w : Word)
  | ldaImm (v : Byte) | ldaZp (b : Byte) | ldaZpx (b : Byte) | ldaAbs (w : Word) | ldaAbx (w : Word)
  | ldaAby (w : Word) | ldaIzx (b : Byte) | ldaIzy (b : Byte)
  | ldxImm (v : Byte) | ldxZp (b : Byte) | ldxZpy (b : Byte) | ldxAbs (w : Word) | ldxAby (w : Word)
  | ldyImm (v : Byte) | ldyZp (b : Byte) | ldyZpx (b : Byte) | ldyAbs (w : Word) | ldyAbx (w : Word)
  | lsrAcc | lsrZp (b : Byte) | lsrZpx (b : Byte) | lsrAbs (w : Word) | lsrAbx (w : Word)
  | nop
  | oraImm (v : Byte) | oraZp (b : Byte) | oraZpx (b : Byte) | oraAbs (w : Word) | oraAbx (w : Word)
  | oraAby (w : Word) | oraIzx (b : Byte) | oraIzy (b : Byte)
  | pha
  | php
  | pla
  | plp
  | rolAcc | rolZp (b : Byte) | rolZpx (b : Byte) | rolAbs (w : Word) | rolAbx (w : Word)
  | rorAcc | rorZp (b : Byte) | rorZpx (b : Byte) | rorAbs (w : Word) | rorAbx (w : Word)
  | rti
  | rts
  | sbcImm (v : Byte) | sbcZp (b : Byte) | sbcZpx (b : Byte) | sbcAbs (w : Word) | sbcAbx (w : Word)
  | sbcAby (w : Word) | sbcIzx (b : Byte) | sbcIzy (b : Byte)
  | sec
  | sed
  | sei
  | staZp (b : Byte) | staZpx (b : Byte) | staAbs (w : Word) | staAbx (w : Word) | staAby (w : Word)
  | staIzx (b : Byte) | staIzy (b : Byte)
  | stxZp (b : Byte) | stxZpy (b : Byte) | stxAbs (w : Word)
  | styZp (b : Byte) | styZpx (b : Byte) | styAbs (w : Word)
  | tax
  | tay
  | tsx
  | txa
  | txs
  | tya
  | ill (op : Byte)
  deriving DecidableEq, Repr

end Sys2Proof
end

