-- ==== Sys2Proof/Decode.lean ====
section
/-! DEFINITION. The decoder and the encoder (spec 30_encoding.md R60 to R67), both written from the opcode map R63: the
decoder one function per row of the map, the encoder one opcode byte per constructor. Decoding is total on every opcode
byte; a list of bytes is refused, by name, only where it ends before the instruction does. -/

namespace Sys2Proof

/-- The mnemonic of an instruction (30_encoding.md R64). -/
def Instr.mnemonic (i : Instr) : Mnemonic :=
  match i with
  | .adcImm _ | .adcZp _ | .adcZpx _ | .adcAbs _ | .adcAbx _ | .adcAby _ | .adcIzx _ | .adcIzy _ => .ADC
  | .andImm _ | .andZp _ | .andZpx _ | .andAbs _ | .andAbx _ | .andAby _ | .andIzx _ | .andIzy _ => .AND
  | .aslAcc | .aslZp _ | .aslZpx _ | .aslAbs _ | .aslAbx _ => .ASL
  | .bcc _ => .BCC
  | .bcs _ => .BCS
  | .beq _ => .BEQ
  | .bitZp _ | .bitAbs _ => .BIT
  | .bmi _ => .BMI
  | .bne _ => .BNE
  | .bpl _ => .BPL
  | .brk => .BRK
  | .bvc _ => .BVC
  | .bvs _ => .BVS
  | .clc => .CLC
  | .cld => .CLD
  | .cli => .CLI
  | .clv => .CLV
  | .cmpImm _ | .cmpZp _ | .cmpZpx _ | .cmpAbs _ | .cmpAbx _ | .cmpAby _ | .cmpIzx _ | .cmpIzy _ => .CMP
  | .cpxImm _ | .cpxZp _ | .cpxAbs _ => .CPX
  | .cpyImm _ | .cpyZp _ | .cpyAbs _ => .CPY
  | .decZp _ | .decZpx _ | .decAbs _ | .decAbx _ => .DEC
  | .dex => .DEX
  | .dey => .DEY
  | .eorImm _ | .eorZp _ | .eorZpx _ | .eorAbs _ | .eorAbx _ | .eorAby _ | .eorIzx _ | .eorIzy _ => .EOR
  | .incZp _ | .incZpx _ | .incAbs _ | .incAbx _ => .INC
  | .inx => .INX
  | .iny => .INY
  | .jmpAbs _ | .jmpInd _ => .JMP
  | .jsr _ => .JSR
  | .ldaImm _ | .ldaZp _ | .ldaZpx _ | .ldaAbs _ | .ldaAbx _ | .ldaAby _ | .ldaIzx _ | .ldaIzy _ => .LDA
  | .ldxImm _ | .ldxZp _ | .ldxZpy _ | .ldxAbs _ | .ldxAby _ => .LDX
  | .ldyImm _ | .ldyZp _ | .ldyZpx _ | .ldyAbs _ | .ldyAbx _ => .LDY
  | .lsrAcc | .lsrZp _ | .lsrZpx _ | .lsrAbs _ | .lsrAbx _ => .LSR
  | .nop => .NOP
  | .oraImm _ | .oraZp _ | .oraZpx _ | .oraAbs _ | .oraAbx _ | .oraAby _ | .oraIzx _ | .oraIzy _ => .ORA
  | .pha => .PHA
  | .php => .PHP
  | .pla => .PLA
  | .plp => .PLP
  | .rolAcc | .rolZp _ | .rolZpx _ | .rolAbs _ | .rolAbx _ => .ROL
  | .rorAcc | .rorZp _ | .rorZpx _ | .rorAbs _ | .rorAbx _ => .ROR
  | .rti => .RTI
  | .rts => .RTS
  | .sbcImm _ | .sbcZp _ | .sbcZpx _ | .sbcAbs _ | .sbcAbx _ | .sbcAby _ | .sbcIzx _ | .sbcIzy _ => .SBC
  | .sec => .SEC
  | .sed => .SED
  | .sei => .SEI
  | .staZp _ | .staZpx _ | .staAbs _ | .staAbx _ | .staAby _ | .staIzx _ | .staIzy _ => .STA
  | .stxZp _ | .stxZpy _ | .stxAbs _ => .STX
  | .styZp _ | .styZpx _ | .styAbs _ => .STY
  | .tax => .TAX
  | .tay => .TAY
  | .tsx => .TSX
  | .txa => .TXA
  | .txs => .TXS
  | .tya => .TYA
  | .ill _ => .ILL

/-- The addressing mode of an instruction (30_encoding.md R61, R63). -/
def Instr.mode (i : Instr) : Mode :=
  match i with
  | .brk | .clc | .cld | .cli | .clv | .dex | .dey | .inx | .iny | .nop | .pha | .php | .pla | .plp | .rti
  | .rts | .sec | .sed | .sei | .tax | .tay | .tsx | .txa | .txs | .tya | .ill _ => .IMP
  | .aslAcc | .lsrAcc | .rolAcc | .rorAcc => .ACC
  | .adcImm _ | .andImm _ | .cmpImm _ | .cpxImm _ | .cpyImm _ | .eorImm _ | .ldaImm _ | .ldxImm _ | .ldyImm _
  | .oraImm _ | .sbcImm _ => .IMM
  | .adcZp _ | .andZp _ | .aslZp _ | .bitZp _ | .cmpZp _ | .cpxZp _ | .cpyZp _ | .decZp _ | .eorZp _ | .incZp _
  | .ldaZp _ | .ldxZp _ | .ldyZp _ | .lsrZp _ | .oraZp _ | .rolZp _ | .rorZp _ | .sbcZp _ | .staZp _ | .stxZp _
  | .styZp _ => .ZP
  | .adcZpx _ | .andZpx _ | .aslZpx _ | .cmpZpx _ | .decZpx _ | .eorZpx _ | .incZpx _ | .ldaZpx _ | .ldyZpx _
  | .lsrZpx _ | .oraZpx _ | .rolZpx _ | .rorZpx _ | .sbcZpx _ | .staZpx _ | .styZpx _ => .ZPX
  | .ldxZpy _ | .stxZpy _ => .ZPY
  | .adcAbs _ | .andAbs _ | .aslAbs _ | .bitAbs _ | .cmpAbs _ | .cpxAbs _ | .cpyAbs _ | .decAbs _ | .eorAbs _
  | .incAbs _ | .jmpAbs _ | .jsr _ | .ldaAbs _ | .ldxAbs _ | .ldyAbs _ | .lsrAbs _ | .oraAbs _ | .rolAbs _
  | .rorAbs _ | .sbcAbs _ | .staAbs _ | .stxAbs _ | .styAbs _ => .ABS
  | .adcAbx _ | .andAbx _ | .aslAbx _ | .cmpAbx _ | .decAbx _ | .eorAbx _ | .incAbx _ | .ldaAbx _ | .ldyAbx _
  | .lsrAbx _ | .oraAbx _ | .rolAbx _ | .rorAbx _ | .sbcAbx _ | .staAbx _ => .ABX
  | .adcAby _ | .andAby _ | .cmpAby _ | .eorAby _ | .ldaAby _ | .ldxAby _ | .oraAby _ | .sbcAby _ | .staAby _ => .ABY
  | .jmpInd _ => .IND
  | .adcIzx _ | .andIzx _ | .cmpIzx _ | .eorIzx _ | .ldaIzx _ | .oraIzx _ | .sbcIzx _ | .staIzx _ => .IZX
  | .adcIzy _ | .andIzy _ | .cmpIzy _ | .eorIzy _ | .ldaIzy _ | .oraIzy _ | .sbcIzy _ | .staIzy _ => .IZY
  | .bcc _ | .bcs _ | .beq _ | .bmi _ | .bne _ | .bpl _ | .bvc _ | .bvs _ => .REL

/-- The length of an instruction by its mode: formats F1, F2, F3 (30_encoding.md R60, R61). -/
def Mode.length (m : Mode) : Nat :=
  match m with
  | .IMP | .ACC => 1
  | .IMM | .ZP | .ZPX | .ZPY | .IZX | .IZY | .REL => 2
  | .ABS | .ABX | .ABY | .IND => 3

/-- The length of an instruction in bytes (30_encoding.md R67). -/
def Instr.length (i : Instr) : Nat := i.mode.length

/-- Row 0x of the opcode map (30_encoding.md R63), by the low nibble `l`; `-` is illegal (R66). -/
def decodeRow0 (l : Nat) (op b1 : Byte) (w : Word) : Instr :=
  match l with
  | 0x0 => .brk
  | 0x1 => .oraIzx b1
  | 0x5 => .oraZp b1
  | 0x6 => .aslZp b1
  | 0x8 => .php
  | 0x9 => .oraImm b1
  | 0xA => .aslAcc
  | 0xD => .oraAbs w
  | 0xE => .aslAbs w
  | _ => .ill op

/-- Row 1x of the opcode map (30_encoding.md R63), by the low nibble `l`; `-` is illegal (R66). -/
def decodeRow1 (l : Nat) (op b1 : Byte) (w : Word) : Instr :=
  match l with
  | 0x0 => .bpl b1
  | 0x1 => .oraIzy b1
  | 0x5 => .oraZpx b1
  | 0x6 => .aslZpx b1
  | 0x8 => .clc
  | 0x9 => .oraAby w
  | 0xD => .oraAbx w
  | 0xE => .aslAbx w
  | _ => .ill op

/-- Row 2x of the opcode map (30_encoding.md R63), by the low nibble `l`; `-` is illegal (R66). -/
def decodeRow2 (l : Nat) (op b1 : Byte) (w : Word) : Instr :=
  match l with
  | 0x0 => .jsr w
  | 0x1 => .andIzx b1
  | 0x4 => .bitZp b1
  | 0x5 => .andZp b1
  | 0x6 => .rolZp b1
  | 0x8 => .plp
  | 0x9 => .andImm b1
  | 0xA => .rolAcc
  | 0xC => .bitAbs w
  | 0xD => .andAbs w
  | 0xE => .rolAbs w
  | _ => .ill op

/-- Row 3x of the opcode map (30_encoding.md R63), by the low nibble `l`; `-` is illegal (R66). -/
def decodeRow3 (l : Nat) (op b1 : Byte) (w : Word) : Instr :=
  match l with
  | 0x0 => .bmi b1
  | 0x1 => .andIzy b1
  | 0x5 => .andZpx b1
  | 0x6 => .rolZpx b1
  | 0x8 => .sec
  | 0x9 => .andAby w
  | 0xD => .andAbx w
  | 0xE => .rolAbx w
  | _ => .ill op

/-- Row 4x of the opcode map (30_encoding.md R63), by the low nibble `l`; `-` is illegal (R66). -/
def decodeRow4 (l : Nat) (op b1 : Byte) (w : Word) : Instr :=
  match l with
  | 0x0 => .rti
  | 0x1 => .eorIzx b1
  | 0x5 => .eorZp b1
  | 0x6 => .lsrZp b1
  | 0x8 => .pha
  | 0x9 => .eorImm b1
  | 0xA => .lsrAcc
  | 0xC => .jmpAbs w
  | 0xD => .eorAbs w
  | 0xE => .lsrAbs w
  | _ => .ill op

/-- Row 5x of the opcode map (30_encoding.md R63), by the low nibble `l`; `-` is illegal (R66). -/
def decodeRow5 (l : Nat) (op b1 : Byte) (w : Word) : Instr :=
  match l with
  | 0x0 => .bvc b1
  | 0x1 => .eorIzy b1
  | 0x5 => .eorZpx b1
  | 0x6 => .lsrZpx b1
  | 0x8 => .cli
  | 0x9 => .eorAby w
  | 0xD => .eorAbx w
  | 0xE => .lsrAbx w
  | _ => .ill op

/-- Row 6x of the opcode map (30_encoding.md R63), by the low nibble `l`; `-` is illegal (R66). -/
def decodeRow6 (l : Nat) (op b1 : Byte) (w : Word) : Instr :=
  match l with
  | 0x0 => .rts
  | 0x1 => .adcIzx b1
  | 0x5 => .adcZp b1
  | 0x6 => .rorZp b1
  | 0x8 => .pla
  | 0x9 => .adcImm b1
  | 0xA => .rorAcc
  | 0xC => .jmpInd w
  | 0xD => .adcAbs w
  | 0xE => .rorAbs w
  | _ => .ill op

/-- Row 7x of the opcode map (30_encoding.md R63), by the low nibble `l`; `-` is illegal (R66). -/
def decodeRow7 (l : Nat) (op b1 : Byte) (w : Word) : Instr :=
  match l with
  | 0x0 => .bvs b1
  | 0x1 => .adcIzy b1
  | 0x5 => .adcZpx b1
  | 0x6 => .rorZpx b1
  | 0x8 => .sei
  | 0x9 => .adcAby w
  | 0xD => .adcAbx w
  | 0xE => .rorAbx w
  | _ => .ill op

/-- Row 8x of the opcode map (30_encoding.md R63), by the low nibble `l`; `-` is illegal (R66). -/
def decodeRow8 (l : Nat) (op b1 : Byte) (w : Word) : Instr :=
  match l with
  | 0x1 => .staIzx b1
  | 0x4 => .styZp b1
  | 0x5 => .staZp b1
  | 0x6 => .stxZp b1
  | 0x8 => .dey
  | 0xA => .txa
  | 0xC => .styAbs w
  | 0xD => .staAbs w
  | 0xE => .stxAbs w
  | _ => .ill op

/-- Row 9x of the opcode map (30_encoding.md R63), by the low nibble `l`; `-` is illegal (R66). -/
def decodeRow9 (l : Nat) (op b1 : Byte) (w : Word) : Instr :=
  match l with
  | 0x0 => .bcc b1
  | 0x1 => .staIzy b1
  | 0x4 => .styZpx b1
  | 0x5 => .staZpx b1
  | 0x6 => .stxZpy b1
  | 0x8 => .tya
  | 0x9 => .staAby w
  | 0xA => .txs
  | 0xD => .staAbx w
  | _ => .ill op

/-- Row Ax of the opcode map (30_encoding.md R63), by the low nibble `l`; `-` is illegal (R66). -/
def decodeRowA (l : Nat) (op b1 : Byte) (w : Word) : Instr :=
  match l with
  | 0x0 => .ldyImm b1
  | 0x1 => .ldaIzx b1
  | 0x2 => .ldxImm b1
  | 0x4 => .ldyZp b1
  | 0x5 => .ldaZp b1
  | 0x6 => .ldxZp b1
  | 0x8 => .tay
  | 0x9 => .ldaImm b1
  | 0xA => .tax
  | 0xC => .ldyAbs w
  | 0xD => .ldaAbs w
  | 0xE => .ldxAbs w
  | _ => .ill op

/-- Row Bx of the opcode map (30_encoding.md R63), by the low nibble `l`; `-` is illegal (R66). -/
def decodeRowB (l : Nat) (op b1 : Byte) (w : Word) : Instr :=
  match l with
  | 0x0 => .bcs b1
  | 0x1 => .ldaIzy b1
  | 0x4 => .ldyZpx b1
  | 0x5 => .ldaZpx b1
  | 0x6 => .ldxZpy b1
  | 0x8 => .clv
  | 0x9 => .ldaAby w
  | 0xA => .tsx
  | 0xC => .ldyAbx w
  | 0xD => .ldaAbx w
  | 0xE => .ldxAby w
  | _ => .ill op

/-- Row Cx of the opcode map (30_encoding.md R63), by the low nibble `l`; `-` is illegal (R66). -/
def decodeRowC (l : Nat) (op b1 : Byte) (w : Word) : Instr :=
  match l with
  | 0x0 => .cpyImm b1
  | 0x1 => .cmpIzx b1
  | 0x4 => .cpyZp b1
  | 0x5 => .cmpZp b1
  | 0x6 => .decZp b1
  | 0x8 => .iny
  | 0x9 => .cmpImm b1
  | 0xA => .dex
  | 0xC => .cpyAbs w
  | 0xD => .cmpAbs w
  | 0xE => .decAbs w
  | _ => .ill op

/-- Row Dx of the opcode map (30_encoding.md R63), by the low nibble `l`; `-` is illegal (R66). -/
def decodeRowD (l : Nat) (op b1 : Byte) (w : Word) : Instr :=
  match l with
  | 0x0 => .bne b1
  | 0x1 => .cmpIzy b1
  | 0x5 => .cmpZpx b1
  | 0x6 => .decZpx b1
  | 0x8 => .cld
  | 0x9 => .cmpAby w
  | 0xD => .cmpAbx w
  | 0xE => .decAbx w
  | _ => .ill op

/-- Row Ex of the opcode map (30_encoding.md R63), by the low nibble `l`; `-` is illegal (R66). -/
def decodeRowE (l : Nat) (op b1 : Byte) (w : Word) : Instr :=
  match l with
  | 0x0 => .cpxImm b1
  | 0x1 => .sbcIzx b1
  | 0x4 => .cpxZp b1
  | 0x5 => .sbcZp b1
  | 0x6 => .incZp b1
  | 0x8 => .inx
  | 0x9 => .sbcImm b1
  | 0xA => .nop
  | 0xC => .cpxAbs w
  | 0xD => .sbcAbs w
  | 0xE => .incAbs w
  | _ => .ill op

/-- Row Fx of the opcode map (30_encoding.md R63), by the low nibble `l`; `-` is illegal (R66). -/
def decodeRowF (l : Nat) (op b1 : Byte) (w : Word) : Instr :=
  match l with
  | 0x0 => .beq b1
  | 0x1 => .sbcIzy b1
  | 0x5 => .sbcZpx b1
  | 0x6 => .incZpx b1
  | 0x8 => .sed
  | 0x9 => .sbcAby w
  | 0xD => .sbcAbx w
  | 0xE => .incAbx w
  | _ => .ill op

/-- The opcode map: opcode byte `op` with operand bytes `b1`, `b2` (30_encoding.md R62, R63, R67). A mode of length 1 or
2 reads no operand byte it does not have. -/
def decodeOp (op b1 b2 : Byte) : Instr :=
  match op.toNat / 16 with
  | 0x0 => decodeRow0 (op.toNat % 16) op b1 (word b2 b1)
  | 0x1 => decodeRow1 (op.toNat % 16) op b1 (word b2 b1)
  | 0x2 => decodeRow2 (op.toNat % 16) op b1 (word b2 b1)
  | 0x3 => decodeRow3 (op.toNat % 16) op b1 (word b2 b1)
  | 0x4 => decodeRow4 (op.toNat % 16) op b1 (word b2 b1)
  | 0x5 => decodeRow5 (op.toNat % 16) op b1 (word b2 b1)
  | 0x6 => decodeRow6 (op.toNat % 16) op b1 (word b2 b1)
  | 0x7 => decodeRow7 (op.toNat % 16) op b1 (word b2 b1)
  | 0x8 => decodeRow8 (op.toNat % 16) op b1 (word b2 b1)
  | 0x9 => decodeRow9 (op.toNat % 16) op b1 (word b2 b1)
  | 0xA => decodeRowA (op.toNat % 16) op b1 (word b2 b1)
  | 0xB => decodeRowB (op.toNat % 16) op b1 (word b2 b1)
  | 0xC => decodeRowC (op.toNat % 16) op b1 (word b2 b1)
  | 0xD => decodeRowD (op.toNat % 16) op b1 (word b2 b1)
  | 0xE => decodeRowE (op.toNat % 16) op b1 (word b2 b1)
  | _ => decodeRowF (op.toNat % 16) op b1 (word b2 b1)

/-- The length that an opcode byte alone fixes (30_encoding.md R60, R67). -/
def opcodeLength (op : Byte) : Nat := (decodeOp op 0x00#8 0x00#8).length

/-- Why a list of bytes is no instruction: it is empty, or it ends before the operand bytes that its opcode asks for. -/
inductive DecodeError where
  | noOpcode
  | operandMissing (op : Byte)
  deriving DecidableEq, Repr

/-- The first instruction of a list of bytes and the bytes after it (30_encoding.md R60). -/
def decode (bytes : List Byte) : Except DecodeError (Instr × List Byte) :=
  match bytes with
  | [] => .error .noOpcode
  | op :: rest =>
    match opcodeLength op, rest with
    | 2, b1 :: rest' => .ok (decodeOp op b1 0x00#8, rest')
    | 2, [] => .error (.operandMissing op)
    | 3, b1 :: b2 :: rest' => .ok (decodeOp op b1 b2, rest')
    | 3, _ => .error (.operandMissing op)
    | _, rest' => .ok (decodeOp op 0x00#8 0x00#8, rest')

/-- The opcode byte of an instruction (30_encoding.md R64; opcode_table.json `match`). -/
def Instr.opcode (i : Instr) : Byte :=
  match i with
  | .adcImm _ => 0x69#8
  | .adcZp _ => 0x65#8
  | .adcZpx _ => 0x75#8
  | .adcAbs _ => 0x6D#8
  | .adcAbx _ => 0x7D#8
  | .adcAby _ => 0x79#8
  | .adcIzx _ => 0x61#8
  | .adcIzy _ => 0x71#8
  | .andImm _ => 0x29#8
  | .andZp _ => 0x25#8
  | .andZpx _ => 0x35#8
  | .andAbs _ => 0x2D#8
  | .andAbx _ => 0x3D#8
  | .andAby _ => 0x39#8
  | .andIzx _ => 0x21#8
  | .andIzy _ => 0x31#8
  | .aslAcc => 0x0A#8
  | .aslZp _ => 0x06#8
  | .aslZpx _ => 0x16#8
  | .aslAbs _ => 0x0E#8
  | .aslAbx _ => 0x1E#8
  | .bcc _ => 0x90#8
  | .bcs _ => 0xB0#8
  | .beq _ => 0xF0#8
  | .bitZp _ => 0x24#8
  | .bitAbs _ => 0x2C#8
  | .bmi _ => 0x30#8
  | .bne _ => 0xD0#8
  | .bpl _ => 0x10#8
  | .brk => 0x00#8
  | .bvc _ => 0x50#8
  | .bvs _ => 0x70#8
  | .clc => 0x18#8
  | .cld => 0xD8#8
  | .cli => 0x58#8
  | .clv => 0xB8#8
  | .cmpImm _ => 0xC9#8
  | .cmpZp _ => 0xC5#8
  | .cmpZpx _ => 0xD5#8
  | .cmpAbs _ => 0xCD#8
  | .cmpAbx _ => 0xDD#8
  | .cmpAby _ => 0xD9#8
  | .cmpIzx _ => 0xC1#8
  | .cmpIzy _ => 0xD1#8
  | .cpxImm _ => 0xE0#8
  | .cpxZp _ => 0xE4#8
  | .cpxAbs _ => 0xEC#8
  | .cpyImm _ => 0xC0#8
  | .cpyZp _ => 0xC4#8
  | .cpyAbs _ => 0xCC#8
  | .decZp _ => 0xC6#8
  | .decZpx _ => 0xD6#8
  | .decAbs _ => 0xCE#8
  | .decAbx _ => 0xDE#8
  | .dex => 0xCA#8
  | .dey => 0x88#8
  | .eorImm _ => 0x49#8
  | .eorZp _ => 0x45#8
  | .eorZpx _ => 0x55#8
  | .eorAbs _ => 0x4D#8
  | .eorAbx _ => 0x5D#8
  | .eorAby _ => 0x59#8
  | .eorIzx _ => 0x41#8
  | .eorIzy _ => 0x51#8
  | .incZp _ => 0xE6#8
  | .incZpx _ => 0xF6#8
  | .incAbs _ => 0xEE#8
  | .incAbx _ => 0xFE#8
  | .inx => 0xE8#8
  | .iny => 0xC8#8
  | .jmpAbs _ => 0x4C#8
  | .jmpInd _ => 0x6C#8
  | .jsr _ => 0x20#8
  | .ldaImm _ => 0xA9#8
  | .ldaZp _ => 0xA5#8
  | .ldaZpx _ => 0xB5#8
  | .ldaAbs _ => 0xAD#8
  | .ldaAbx _ => 0xBD#8
  | .ldaAby _ => 0xB9#8
  | .ldaIzx _ => 0xA1#8
  | .ldaIzy _ => 0xB1#8
  | .ldxImm _ => 0xA2#8
  | .ldxZp _ => 0xA6#8
  | .ldxZpy _ => 0xB6#8
  | .ldxAbs _ => 0xAE#8
  | .ldxAby _ => 0xBE#8
  | .ldyImm _ => 0xA0#8
  | .ldyZp _ => 0xA4#8
  | .ldyZpx _ => 0xB4#8
  | .ldyAbs _ => 0xAC#8
  | .ldyAbx _ => 0xBC#8
  | .lsrAcc => 0x4A#8
  | .lsrZp _ => 0x46#8
  | .lsrZpx _ => 0x56#8
  | .lsrAbs _ => 0x4E#8
  | .lsrAbx _ => 0x5E#8
  | .nop => 0xEA#8
  | .oraImm _ => 0x09#8
  | .oraZp _ => 0x05#8
  | .oraZpx _ => 0x15#8
  | .oraAbs _ => 0x0D#8
  | .oraAbx _ => 0x1D#8
  | .oraAby _ => 0x19#8
  | .oraIzx _ => 0x01#8
  | .oraIzy _ => 0x11#8
  | .pha => 0x48#8
  | .php => 0x08#8
  | .pla => 0x68#8
  | .plp => 0x28#8
  | .rolAcc => 0x2A#8
  | .rolZp _ => 0x26#8
  | .rolZpx _ => 0x36#8
  | .rolAbs _ => 0x2E#8
  | .rolAbx _ => 0x3E#8
  | .rorAcc => 0x6A#8
  | .rorZp _ => 0x66#8
  | .rorZpx _ => 0x76#8
  | .rorAbs _ => 0x6E#8
  | .rorAbx _ => 0x7E#8
  | .rti => 0x40#8
  | .rts => 0x60#8
  | .sbcImm _ => 0xE9#8
  | .sbcZp _ => 0xE5#8
  | .sbcZpx _ => 0xF5#8
  | .sbcAbs _ => 0xED#8
  | .sbcAbx _ => 0xFD#8
  | .sbcAby _ => 0xF9#8
  | .sbcIzx _ => 0xE1#8
  | .sbcIzy _ => 0xF1#8
  | .sec => 0x38#8
  | .sed => 0xF8#8
  | .sei => 0x78#8
  | .staZp _ => 0x85#8
  | .staZpx _ => 0x95#8
  | .staAbs _ => 0x8D#8
  | .staAbx _ => 0x9D#8
  | .staAby _ => 0x99#8
  | .staIzx _ => 0x81#8
  | .staIzy _ => 0x91#8
  | .stxZp _ => 0x86#8
  | .stxZpy _ => 0x96#8
  | .stxAbs _ => 0x8E#8
  | .styZp _ => 0x84#8
  | .styZpx _ => 0x94#8
  | .styAbs _ => 0x8C#8
  | .tax => 0xAA#8
  | .tay => 0xA8#8
  | .tsx => 0xBA#8
  | .txa => 0x8A#8
  | .txs => 0x9A#8
  | .tya => 0x98#8
  | .ill op => op

/-- The operand bytes of an instruction, low byte of a word first (30_encoding.md R61, R62). -/
def Instr.operandBytes (i : Instr) : List Byte :=
  match i with
  | .aslAcc | .brk | .clc | .cld | .cli | .clv | .dex | .dey | .inx | .iny | .lsrAcc | .nop | .pha | .php
  | .pla | .plp | .rolAcc | .rorAcc | .rti | .rts | .sec | .sed | .sei | .tax | .tay | .tsx | .txa | .txs
  | .tya | .ill _ => []
  | .adcImm b | .adcIzx b | .adcIzy b | .adcZp b | .adcZpx b | .andImm b | .andIzx b | .andIzy b | .andZp b
  | .andZpx b | .aslZp b | .aslZpx b | .bcc b | .bcs b | .beq b | .bitZp b | .bmi b | .bne b | .bpl b | .bvc b
  | .bvs b | .cmpImm b | .cmpIzx b | .cmpIzy b | .cmpZp b | .cmpZpx b | .cpxImm b | .cpxZp b | .cpyImm b
  | .cpyZp b | .decZp b | .decZpx b | .eorImm b | .eorIzx b | .eorIzy b | .eorZp b | .eorZpx b | .incZp b
  | .incZpx b | .ldaImm b | .ldaIzx b | .ldaIzy b | .ldaZp b | .ldaZpx b | .ldxImm b | .ldxZp b | .ldxZpy b
  | .ldyImm b | .ldyZp b | .ldyZpx b | .lsrZp b | .lsrZpx b | .oraImm b | .oraIzx b | .oraIzy b | .oraZp b
  | .oraZpx b | .rolZp b | .rolZpx b | .rorZp b | .rorZpx b | .sbcImm b | .sbcIzx b | .sbcIzy b | .sbcZp b
  | .sbcZpx b | .staIzx b | .staIzy b | .staZp b | .staZpx b | .stxZp b | .stxZpy b | .styZp b | .styZpx b => [b]
  | .adcAbs w | .adcAbx w | .adcAby w | .andAbs w | .andAbx w | .andAby w | .aslAbs w | .aslAbx w | .bitAbs w
  | .cmpAbs w | .cmpAbx w | .cmpAby w | .cpxAbs w | .cpyAbs w | .decAbs w | .decAbx w | .eorAbs w | .eorAbx w
  | .eorAby w | .incAbs w | .incAbx w | .jmpAbs w | .jmpInd w | .jsr w | .ldaAbs w | .ldaAbx w | .ldaAby w
  | .ldxAbs w | .ldxAby w | .ldyAbs w | .ldyAbx w | .lsrAbs w | .lsrAbx w | .oraAbs w | .oraAbx w | .oraAby w
  | .rolAbs w | .rolAbx w | .rorAbs w | .rorAbx w | .sbcAbs w | .sbcAbx w | .sbcAby w | .staAbs w | .staAbx w
  | .staAby w | .stxAbs w | .styAbs w => [lo w, hi w]

/-- The bytes of an instruction, at rising addresses (30_encoding.md R60). -/
def encode (i : Instr) : List Byte := i.opcode :: i.operandBytes

/-- Byte `k` of an instruction word whose lowest `nbits` bits are `w`'s and whose higher bits are 0, numbered as
spec/opcode_table.json numbers them: the opcode byte is bits 7 to 0. -/
def tableByte (nbits w k : Nat) : Byte := BitVec.ofNat 8 ((w % 2 ^ nbits) / 2 ^ (8 * k))

/-- The three bytes of an instruction given as opcode_table.json numbers its bits (the longest instruction has three). -/
def tableBytes (nbits w : Nat) : List Byte := [tableByte nbits w 0, tableByte nbits w 1, tableByte nbits w 2]

/-- What the decoder reads from an instruction given as opcode_table.json numbers its bits. -/
def decodeTableWord (nbits w : Nat) : Option Instr :=
  match decode (tableBytes nbits w) with
  | .ok (i, _) => some i
  | .error _ => none

end Sys2Proof
end

