-- ==== Sys2Proof/Machine/Fetch.lean ====
section
/-! DEFINITION. Fetching an instruction: the opcode byte, then as many operand bytes as its format has, each by one bus read
at the moment it is needed (spec 40_step_and_addressing.md R80, R82, R83; 30_encoding.md R67). -/

namespace Sys2Proof.Machine

/-- An instruction fetched, and the state after its bytes have been fetched. -/
structure FetchedInstr where
  instr : Instr
  after : State
  deriving DecidableEq, Repr

/-- Fetch and decode the instruction at `pc` (40_step_and_addressing.md R80). -/
def fetchInstr (s : State) : FetchedInstr :=
  let op := fetch s
  match opcodeLength op.value with
  | 2 =>
    let b1 := fetch op.after
    { instr := decodeOp op.value b1.value 0x00#8, after := b1.after }
  | 3 =>
    let b1 := fetch op.after
    let b2 := fetch b1.after
    { instr := decodeOp op.value b1.value b2.value, after := b2.after }
  | _ => { instr := decodeOp op.value 0x00#8 0x00#8, after := op.after }

/-- `a` lies in a `RAM` or `ROM` region, so that a fetch at `a` reads the store (20_memory.md R36). -/
def storageAt (s : State) (a : Word) : Bool :=
  match kindAt s a with
  | some .ram | some .rom => true
  | some (.device _) | none => false

/-- The region table that makes a placed instruction reachable: `s`'s own where the three addresses from `pc` on are
storage, else one `RAM` region over all of the space (notes/assumptions/10.md). -/
def regionsForFetch (s : State) : List Region :=
  if storageAt s s.pc && storageAt s (s.pc + 1#16) && storageAt s (s.pc + 2#16) then s.regions
  else [{ start := 0, length := Config.spaceSize, kind := .ram }]

/-- The store with three bytes placed at `pc`, modulo 65536 (30_encoding.md R60). -/
def storeWithBytes (s : State) (b0 b1 b2 : Byte) : Memory :=
  ((s.store.write s.pc.toNat b0).write (s.pc + 1#16).toNat b1).write (s.pc + 2#16).toNat b2

/-- The state with an instruction, given as opcode_table.json numbers its bits, where the next step fetches: no interrupt
due, so that the step does fetch (60_exceptions.md R236). -/
def placeInstr (s : State) (nbits w : Nat) : State :=
  { s with
    store := storeWithBytes s (tableByte nbits w 0) (tableByte nbits w 1) (tableByte nbits w 2)
    regions := regionsForFetch s
    irqLine := s.irqLine && (!s.hasIntLines || s.p.i)
    nmiPending := s.nmiPending && !s.hasIntLines }

end Sys2Proof.Machine
end

