-- ==== Sys2Proof/Machine/Step.lean ====
section
/-! DEFINITION. One step (spec 40_step_and_addressing.md R80): an interrupt entry when one is due, else one instruction. -/

namespace Sys2Proof.Machine

/-- `step()` (40_step_and_addressing.md R80, 60_exceptions.md R236): three outcomes by type, of which the spec's machine
only ever has the first. -/
def step (s : State) : Host.Outcome State Fault Refusal :=
  match dueInterrupt s with
  | some k => .next (enterInterrupt k s)
  | none => exec (fetchInstr s).instr (fetchInstr s).after

/-- `s` with the instruction whose bits are `w` where `step` fetches next, so that the very next step runs it. -/
def State.withFetchWord (s : State) (nbits w : Nat) : State := placeInstr s nbits w

end Sys2Proof.Machine
end

