-- ==== Sys2Proof/Machine/Construct.lean ====
section
/-! DEFINITION. Construction of the core (spec 70_reset_and_hazards.md R260, R261; 20_memory.md R31 to R34): from the region
list, the bytes the host places, `INITIAL_PC`, `RESET_REGS` and `HAS_INT_LINES` to the state before the first step. -/

namespace Sys2Proof.Machine

/-- The kind a descriptor gives its region (20_memory.md R32): `DEVICE` when a callback is present, whatever `read_only`
says. -/
def descriptorKind (r : RegionDescriptor) : RegionKind :=
  match r.device with
  | some id => .device id
  | none => if r.readOnly then .rom else .ram

/-- The region of a descriptor (20_memory.md R31, R32). -/
def descriptorRegion (r : RegionDescriptor) : Region :=
  { start := r.start, length := r.length, kind := descriptorKind r }

/-- The bytes that a descriptor copies to its region: `src[source_offset + i]` for as many `i` as both have (20_memory.md
R34). -/
def initialBytes (r : RegionDescriptor) : List Byte :=
  match r.initialSource with
  | none => []
  | some src => (src.drop r.sourceOffset).take r.length

/-- The store after construction: zero fill, then the initial sources in list order (20_memory.md R34). -/
def initialStore : List RegionDescriptor → Memory → Memory
  | [], m => m
  | r :: rs, m => initialStore rs (m.writeList r.start (initialBytes r))

/-- One call of `write_range` (20_memory.md R46). -/
structure BypassWrite where
  start : Nat
  bytes : List Byte
  deriving DecidableEq, Repr

/-- The construction input but for the devices: `REGIONS`, what the host places with `write_range` before the engine is built
(70_reset_and_hazards.md R260), `INITIAL_PC` (`none`: the default), `RESET_REGS` and `HAS_INT_LINES` (00_scope.md R7). The
`i` of `flags` is not used: `P.I` is 1 after construction. -/
structure ConstructionInput where
  regions : List RegionDescriptor
  hostWrites : List BypassWrite
  initialPc : Option Nat
  a : Byte
  x : Byte
  y : Byte
  sp : Byte
  flags : Flags
  hasIntLines : Bool
  deriving DecidableEq, Repr

/-- Step (2) of 70_reset_and_hazards.md R260 for a valid table: the Address Space with its zero fill and initial contents,
around it the registers of `RESET_REGS`, `pc` not yet set. The devices of step (1) have been told nothing. -/
def withAddressSpace (c : ConstructionInput) : State where
  a := c.a
  x := c.x
  y := c.y
  sp := c.sp
  pc := 0x0000#16
  p := { c.flags with i := true }
  store := initialStore c.regions []
  regions := c.regions.map descriptorRegion
  deviceLog := []
  hasIntLines := c.hasIntLines
  irqLine := false
  nmiPending := false
  cost := 0

/-- The host's `write_range` calls between steps (2) and (3) of construction, in order (70_reset_and_hazards.md R260). -/
def placeBytes : List BypassWrite → State → Answer
  | [], s => .next s
  | w :: ws, s => andThen (writeRange w.start w.bytes s) (placeBytes ws)

/-- Step (3) of 70_reset_and_hazards.md R260, the engine's `pc`: `INITIAL_PC` modulo 65536, or by default the word at the reset vector, read low byte first
(70_reset_and_hazards.md R261). -/
def setInitialPc (initialPc : Option Nat) (s : State) : State :=
  match initialPc with
  | some n => s.setPc (BitVec.ofNat 16 n)
  | none =>
    let r := readWord resetVector (resetVector + 1#16) s
    r.after.setPc r.value

/-- Construction, in the order of 70_reset_and_hazards.md R260: the table is validated, and an invalid one yields no core
(20_memory.md R33, 90_conflicts.md C6); the Address Space is built; the host places its bytes; and the engine is built, whose
default `pc` is read from the store as it then is. The result is the state of R261. -/
def construct (c : ConstructionInput) : Answer :=
  if validRegions (c.regions.map descriptorRegion) then
    andThen (placeBytes c.hostWrites (withAddressSpace c)) (fun s => .next (setInitialPc c.initialPc s))
  else .refused .invalidRegionTable

end Sys2Proof.Machine
end

