-- ==== Sys2Proof/Machine/HostOps.lean ====
section
/-! DEFINITION. What the host and the outside world can do between two steps (spec 70_reset_and_hazards.md R262 to R268):
assign `pc`, read the status byte, drive the interrupt lines (60_exceptions.md R234,
R235), change device state (20_memory.md R40); the bypass stands in Machine/Ops.lean, as construction uses it too; and the batched step `run_n` (40_step_and_addressing.md R81). -/

namespace Sys2Proof.Machine

/-- Assignment of `pc`: any value, reduced modulo 65536, nothing else (70_reset_and_hazards.md R264, R268). -/
def assignPc (n : Int) (s : State) : State := s.setPc (BitVec.ofInt 16 n)

/-- `P` as the host reads it back: `PackP(1)` (10_state.md R20, 92_eei_decisions.md D18). -/
def statusByte (s : State) : Byte := s.p.pack true

/-- The outside world changes device state (20_memory.md R40): from here on the devices may answer anything else. -/
def outsideChange (code : Nat) (s : State) : State := s.setDeviceLog (.outside code :: s.deviceLog)

/-- The level of the IRQ line is set from outside; without the lines there is nothing to set (60_exceptions.md R233,
R234). -/
def setIrqLine (level : Bool) (s : State) : State := if s.hasIntLines then { s with irqLine := level } else s

/-- An inactive-to-active transition of the NMI input: the latch is set, a second edge is lost (60_exceptions.md R235). -/
def nmiEdge (s : State) : State := if s.hasIntLines then s.setNmiPending true else s

/-- The state a run leaves and the sum of the costs of its steps (40_step_and_addressing.md R81, 92_eei_decisions.md
D20). -/
structure RunResult where
  after : State
  total : Nat
  deriving DecidableEq, Repr

/-- `run_n(count)`: `step()` performed `count` times in sequence (40_step_and_addressing.md R81). -/
def runN : Nat → State → Host.Outcome RunResult Fault Refusal
  | 0, s => .next { after := s, total := 0 }
  | count + 1, s =>
    match step s with
    | .next t =>
      match runN count t with
      | .next r => .next { r with total := t.cost + r.total }
      | .fault f => .fault f
      | .refused q => .refused q
    | .fault f => .fault f
    | .refused q => .refused q

end Sys2Proof.Machine
end

