-- ==== Sys2Proof/Safety.lean ====
section
/-! DEFINITION. The terms the statements use: the invariant of the machine, the forms each instruction has with the opcode
bytes its rule lists, the writers of each flag and register (spec 10_state.md R11 to R17), and the states that traps and
pulls lead to, written from single bus accesses. -/

namespace Sys2Proof.Machine

/-! ### The invariant -/

/-- The store is in its canonical form and the region table is one that construction accepts (20_memory.md R33). -/
abbrev State.Inv (s : State) : Prop := s.store.wf = true ∧ validRegions s.regions = true

/-- Two states that a program cannot tell apart: they differ at most in backing bytes that no bus access reads, those under
`DEVICE` regions and at unmapped addresses (20_memory.md R36, R43, R45). -/
def AgreeOnBus (s t : State) : Prop :=
  t = s.setStore t.store ∧ ∀ a : Word, storageAt s a = true → t.store.read a.toNat = s.store.read a.toNat

/-! ### Construction -/

/-- The byte at an address before any write of the host (20_memory.md R34): of the initial source of the region that holds it,
as far as the source goes, else 0x00. -/
def initialByteAt : List RegionDescriptor → Nat → Byte
  | [], _ => 0x00#8
  | r :: rs, a =>
    if r.start ≤ a ∧ a < r.start + r.length then
      match r.initialSource with
      | none => 0x00#8
      | some src => src.getD (r.sourceOffset + (a - r.start)) 0x00#8
    else initialByteAt rs a

/-- The byte at `a`, `v` before, after the host's writes `ws` in order: the last one that covers `a` decides (20_memory.md
R46). -/
def byteAfterWrites : List BypassWrite → Nat → Byte → Byte
  | [], _, v => v
  | w :: ws, a, v =>
    byteAfterWrites ws a (if w.start ≤ a ∧ a < w.start + w.bytes.length then w.bytes.getD (a - w.start) 0x00#8 else v)

/-- The construction input of `State.reset`: one `RAM` region and the values 70_reset_and_hazards.md R261 offers a simulator
(notes/assumptions/1.md, 2.md). -/
def resetInput : ConstructionInput where
  regions :=
    [{ start := 0, length := 65536, readOnly := false, initialSource := none, sourceOffset := 0, device := none }]
  hostWrites := []
  initialPc := none
  a := 0x00#8
  x := 0x00#8
  y := 0x00#8
  sp := 0xFD#8
  flags := { n := false, v := false, d := false, i := true, z := false, c := false }
  hasIntLines := false

/-! ### What an instruction stores -/

/-- From `s` to `t` at most the byte at `a` of the store changed; in `RAM` it became `v`, elsewhere nothing changed
(20_memory.md R37). -/
def StoresByte (s t : State) (a : Word) (v : Byte) : Prop :=
  (∀ b, b ≠ a.toNat → t.store.read b = s.store.read b) ∧
  (kindAt s a ≠ some .ram → t.store = s.store) ∧
  (kindAt s a = some .ram → s.store.wf = true → t.store.read a.toNat = v)

/-- The device history after a bus write of `v` at `a` when it was `log` before (20_memory.md R37, R41). -/
def logAfterWrite (s : State) (a : Word) (v : Byte) (log : List DeviceEvent) : List DeviceEvent :=
  match kindAt s a with
  | some (.device id) => .call id a (some v) :: log
  | some .ram | some .rom | none => log

/-! ### Traps, from single bus accesses -/

/-- The three bus writes of a trap (47_flags_system.md R218, 60_exceptions.md R238): high byte of the return address, low
byte, status byte, downwards from `S` in page 1. -/
def pushedFrame (s : State) (ret : Word) (status : Byte) : State :=
  busWrite (stackAddr (s.sp - 2#8)) status (busWrite (stackAddr (s.sp - 1#8)) (lo ret) (busWrite (stackAddr s.sp) (hi ret) s))

/-- The state after a trap (47_flags_system.md R218, 60_exceptions.md R238). -/
def trapState (s : State) (ret : Word) (b : Bool) (vector : Word) : State :=
  let u := pushedFrame s ret (s.p.pack b)
  let l := busRead vector u
  let h := busRead (vector + 1#16) l.after
  { s with
    store := u.store
    deviceLog := h.after.deviceLog
    sp := s.sp - 3#8
    p := { s.p with i := true }
    pc := word h.value l.value
    cost := 7 }

/-! ### Instruction forms, with the opcode bytes of their rules -/

/-- A read-class instruction: its opcode byte, the instruction, its operand. -/
structure ReadForm where
  opcode : Byte
  instr : Instr
  operand : Source

/-- A write-class instruction. -/
structure WriteForm where
  opcode : Byte
  instr : Instr
  operand : MemOperand

/-- A read-modify-write instruction on memory, with its function and its cost. -/
structure RmwForm where
  opcode : Byte
  instr : Instr
  operand : MemOperand
  f : Byte → Flags → Result8
  cost : Nat

/-- A read-modify-write instruction on the accumulator. -/
structure AccForm where
  opcode : Byte
  instr : Instr
  f : Byte → Flags → Result8

/-- A conditional branch: its opcode byte, the instruction, and its condition on the flags. -/
structure BranchForm where
  opcode : Byte
  instr : Instr
  cond : Flags → Bool

/-- The forms of LDA (41_load_store_transfer.md R110). -/
def ldaForms (b : Byte) (w : Word) : List ReadForm :=
  [⟨0xA9#8, .ldaImm b, .imm b⟩, ⟨0xA5#8, .ldaZp b, .mem (.zp b)⟩, ⟨0xB5#8, .ldaZpx b, .mem (.zpx b)⟩,
   ⟨0xAD#8, .ldaAbs w, .mem (.abs w)⟩, ⟨0xBD#8, .ldaAbx w, .mem (.abx w)⟩, ⟨0xB9#8, .ldaAby w, .mem (.aby w)⟩,
   ⟨0xA1#8, .ldaIzx b, .mem (.izx b)⟩, ⟨0xB1#8, .ldaIzy b, .mem (.izy b)⟩]

/-- The forms of LDX (41_load_store_transfer.md R111). -/
def ldxForms (b : Byte) (w : Word) : List ReadForm :=
  [⟨0xA2#8, .ldxImm b, .imm b⟩, ⟨0xA6#8, .ldxZp b, .mem (.zp b)⟩, ⟨0xB6#8, .ldxZpy b, .mem (.zpy b)⟩,
   ⟨0xAE#8, .ldxAbs w, .mem (.abs w)⟩, ⟨0xBE#8, .ldxAby w, .mem (.aby w)⟩]

/-- The forms of LDY (41_load_store_transfer.md R112). -/
def ldyForms (b : Byte) (w : Word) : List ReadForm :=
  [⟨0xA0#8, .ldyImm b, .imm b⟩, ⟨0xA4#8, .ldyZp b, .mem (.zp b)⟩, ⟨0xB4#8, .ldyZpx b, .mem (.zpx b)⟩,
   ⟨0xAC#8, .ldyAbs w, .mem (.abs w)⟩, ⟨0xBC#8, .ldyAbx w, .mem (.abx w)⟩]

/-- The forms of AND (44_logic.md R160). -/
def andForms (b : Byte) (w : Word) : List ReadForm :=
  [⟨0x29#8, .andImm b, .imm b⟩, ⟨0x25#8, .andZp b, .mem (.zp b)⟩, ⟨0x35#8, .andZpx b, .mem (.zpx b)⟩,
   ⟨0x2D#8, .andAbs w, .mem (.abs w)⟩, ⟨0x3D#8, .andAbx w, .mem (.abx w)⟩, ⟨0x39#8, .andAby w, .mem (.aby w)⟩,
   ⟨0x21#8, .andIzx b, .mem (.izx b)⟩, ⟨0x31#8, .andIzy b, .mem (.izy b)⟩]

/-- The forms of ORA (44_logic.md R161). -/
def oraForms (b : Byte) (w : Word) : List ReadForm :=
  [⟨0x09#8, .oraImm b, .imm b⟩, ⟨0x05#8, .oraZp b, .mem (.zp b)⟩, ⟨0x15#8, .oraZpx b, .mem (.zpx b)⟩,
   ⟨0x0D#8, .oraAbs w, .mem (.abs w)⟩, ⟨0x1D#8, .oraAbx w, .mem (.abx w)⟩, ⟨0x19#8, .oraAby w, .mem (.aby w)⟩,
   ⟨0x01#8, .oraIzx b, .mem (.izx b)⟩, ⟨0x11#8, .oraIzy b, .mem (.izy b)⟩]

/-- The forms of EOR (44_logic.md R162). -/
def eorForms (b : Byte) (w : Word) : List ReadForm :=
  [⟨0x49#8, .eorImm b, .imm b⟩, ⟨0x45#8, .eorZp b, .mem (.zp b)⟩, ⟨0x55#8, .eorZpx b, .mem (.zpx b)⟩,
   ⟨0x4D#8, .eorAbs w, .mem (.abs w)⟩, ⟨0x5D#8, .eorAbx w, .mem (.abx w)⟩, ⟨0x59#8, .eorAby w, .mem (.aby w)⟩,
   ⟨0x41#8, .eorIzx b, .mem (.izx b)⟩, ⟨0x51#8, .eorIzy b, .mem (.izy b)⟩]

/-- The forms of BIT (44_logic.md R163). -/
def bitForms (b : Byte) (w : Word) : List ReadForm :=
  [⟨0x24#8, .bitZp b, .mem (.zp b)⟩, ⟨0x2C#8, .bitAbs w, .mem (.abs w)⟩]

/-- The forms of ADC (43_arithmetic.md R140). -/
def adcForms (b : Byte) (w : Word) : List ReadForm :=
  [⟨0x69#8, .adcImm b, .imm b⟩, ⟨0x65#8, .adcZp b, .mem (.zp b)⟩, ⟨0x75#8, .adcZpx b, .mem (.zpx b)⟩,
   ⟨0x6D#8, .adcAbs w, .mem (.abs w)⟩, ⟨0x7D#8, .adcAbx w, .mem (.abx w)⟩, ⟨0x79#8, .adcAby w, .mem (.aby w)⟩,
   ⟨0x61#8, .adcIzx b, .mem (.izx b)⟩, ⟨0x71#8, .adcIzy b, .mem (.izy b)⟩]

/-- The forms of SBC (43_arithmetic.md R142). -/
def sbcForms (b : Byte) (w : Word) : List ReadForm :=
  [⟨0xE9#8, .sbcImm b, .imm b⟩, ⟨0xE5#8, .sbcZp b, .mem (.zp b)⟩, ⟨0xF5#8, .sbcZpx b, .mem (.zpx b)⟩,
   ⟨0xED#8, .sbcAbs w, .mem (.abs w)⟩, ⟨0xFD#8, .sbcAbx w, .mem (.abx w)⟩, ⟨0xF9#8, .sbcAby w, .mem (.aby w)⟩,
   ⟨0xE1#8, .sbcIzx b, .mem (.izx b)⟩, ⟨0xF1#8, .sbcIzy b, .mem (.izy b)⟩]

/-- The forms of CMP (43_arithmetic.md R144). -/
def cmpForms (b : Byte) (w : Word) : List ReadForm :=
  [⟨0xC9#8, .cmpImm b, .imm b⟩, ⟨0xC5#8, .cmpZp b, .mem (.zp b)⟩, ⟨0xD5#8, .cmpZpx b, .mem (.zpx b)⟩,
   ⟨0xCD#8, .cmpAbs w, .mem (.abs w)⟩, ⟨0xDD#8, .cmpAbx w, .mem (.abx w)⟩, ⟨0xD9#8, .cmpAby w, .mem (.aby w)⟩,
   ⟨0xC1#8, .cmpIzx b, .mem (.izx b)⟩, ⟨0xD1#8, .cmpIzy b, .mem (.izy b)⟩]

/-- The forms of CPX (43_arithmetic.md R145). -/
def cpxForms (b : Byte) (w : Word) : List ReadForm :=
  [⟨0xE0#8, .cpxImm b, .imm b⟩, ⟨0xE4#8, .cpxZp b, .mem (.zp b)⟩, ⟨0xEC#8, .cpxAbs w, .mem (.abs w)⟩]

/-- The forms of CPY (43_arithmetic.md R146). -/
def cpyForms (b : Byte) (w : Word) : List ReadForm :=
  [⟨0xC0#8, .cpyImm b, .imm b⟩, ⟨0xC4#8, .cpyZp b, .mem (.zp b)⟩, ⟨0xCC#8, .cpyAbs w, .mem (.abs w)⟩]

/-- The forms of STA (41_load_store_transfer.md R113). -/
def staForms (b : Byte) (w : Word) : List WriteForm :=
  [⟨0x85#8, .staZp b, .zp b⟩, ⟨0x95#8, .staZpx b, .zpx b⟩, ⟨0x8D#8, .staAbs w, .abs w⟩,
   ⟨0x9D#8, .staAbx w, .abx w⟩, ⟨0x99#8, .staAby w, .aby w⟩, ⟨0x81#8, .staIzx b, .izx b⟩,
   ⟨0x91#8, .staIzy b, .izy b⟩]

/-- The forms of STX (41_load_store_transfer.md R114). -/
def stxForms (b : Byte) (w : Word) : List WriteForm :=
  [⟨0x86#8, .stxZp b, .zp b⟩, ⟨0x96#8, .stxZpy b, .zpy b⟩, ⟨0x8E#8, .stxAbs w, .abs w⟩]

/-- The forms of STY (41_load_store_transfer.md R115). -/
def styForms (b : Byte) (w : Word) : List WriteForm :=
  [⟨0x84#8, .styZp b, .zp b⟩, ⟨0x94#8, .styZpx b, .zpx b⟩, ⟨0x8C#8, .styAbs w, .abs w⟩]

/-- The memory forms of ASL, LSR, ROL, ROR, INC, DEC (45_shift_incdec.md R170 to R175, costs R180). -/
def rmwForms (b : Byte) (w : Word) : List RmwForm :=
  [⟨0x06#8, .aslZp b, .zp b, aslByte, 5⟩, ⟨0x16#8, .aslZpx b, .zpx b, aslByte, 6⟩,
   ⟨0x0E#8, .aslAbs w, .abs w, aslByte, 6⟩, ⟨0x1E#8, .aslAbx w, .abx w, aslByte, 7⟩,
   ⟨0x46#8, .lsrZp b, .zp b, lsrByte, 5⟩, ⟨0x56#8, .lsrZpx b, .zpx b, lsrByte, 6⟩,
   ⟨0x4E#8, .lsrAbs w, .abs w, lsrByte, 6⟩, ⟨0x5E#8, .lsrAbx w, .abx w, lsrByte, 7⟩,
   ⟨0x26#8, .rolZp b, .zp b, rolByte, 5⟩, ⟨0x36#8, .rolZpx b, .zpx b, rolByte, 6⟩,
   ⟨0x2E#8, .rolAbs w, .abs w, rolByte, 6⟩, ⟨0x3E#8, .rolAbx w, .abx w, rolByte, 7⟩,
   ⟨0x66#8, .rorZp b, .zp b, rorByte, 5⟩, ⟨0x76#8, .rorZpx b, .zpx b, rorByte, 6⟩,
   ⟨0x6E#8, .rorAbs w, .abs w, rorByte, 6⟩, ⟨0x7E#8, .rorAbx w, .abx w, rorByte, 7⟩,
   ⟨0xE6#8, .incZp b, .zp b, incByte, 5⟩, ⟨0xF6#8, .incZpx b, .zpx b, incByte, 6⟩,
   ⟨0xEE#8, .incAbs w, .abs w, incByte, 6⟩, ⟨0xFE#8, .incAbx w, .abx w, incByte, 7⟩,
   ⟨0xC6#8, .decZp b, .zp b, decByte, 5⟩, ⟨0xD6#8, .decZpx b, .zpx b, decByte, 6⟩,
   ⟨0xCE#8, .decAbs w, .abs w, decByte, 6⟩, ⟨0xDE#8, .decAbx w, .abx w, decByte, 7⟩]

/-- The accumulator forms of ASL, LSR, ROL, ROR (45_shift_incdec.md R170 to R173). -/
def accForms : List AccForm :=
  [⟨0x0A#8, .aslAcc, aslByte⟩, ⟨0x4A#8, .lsrAcc, lsrByte⟩, ⟨0x2A#8, .rolAcc, rolByte⟩,
   ⟨0x6A#8, .rorAcc, rorByte⟩]

/-- The eight conditional branches (46_control_flow.md R195 to R202). -/
def branchForms (off : Byte) : List BranchForm :=
  [⟨0x90#8, .bcc off, fun p => !p.c⟩, ⟨0xB0#8, .bcs off, fun p => p.c⟩, ⟨0xF0#8, .beq off, fun p => p.z⟩,
   ⟨0xD0#8, .bne off, fun p => !p.z⟩, ⟨0x30#8, .bmi off, fun p => p.n⟩, ⟨0x10#8, .bpl off, fun p => !p.n⟩,
   ⟨0x50#8, .bvc off, fun p => !p.v⟩, ⟨0x70#8, .bvs off, fun p => p.v⟩]

/-! ### Who writes what -/

/-- The control-flow instructions (10_state.md R15): every other instruction leaves `pc` at the next instruction. -/
def controlFlow : List Mnemonic :=
  [.JMP, .JSR, .RTS, .RTI, .BRK, .BCC, .BCS, .BEQ, .BNE, .BMI, .BPL, .BVC, .BVS]

/-- The writers of `P.N`, and of `P.Z` (10_state.md R17). -/
def writersNZ : List Mnemonic :=
  [.ADC, .SBC, .AND, .ORA, .EOR, .ASL, .LSR, .ROL, .ROR, .INC, .DEC, .INX, .INY, .DEX, .DEY, .LDA, .LDX, .LDY, .TAX,
   .TAY, .TXA, .TYA, .TSX, .PLA, .CMP, .CPX, .CPY, .BIT, .PLP, .RTI]

/-- The writers of `P.V` (10_state.md R17). -/
def writersV : List Mnemonic := [.ADC, .SBC, .BIT, .CLV, .PLP, .RTI]

/-- The writers of `P.D` (10_state.md R17). -/
def writersD : List Mnemonic := [.CLD, .SED, .PLP, .RTI]

/-- The writers of `P.I` (10_state.md R17). -/
def writersI : List Mnemonic := [.CLI, .SEI, .BRK, .PLP, .RTI]

/-- The writers of `P.C` (10_state.md R17). -/
def writersC : List Mnemonic := [.ADC, .SBC, .ASL, .LSR, .ROL, .ROR, .CMP, .CPX, .CPY, .CLC, .SEC, .PLP, .RTI]

/-- The writers of `A` (10_state.md R11). -/
def writersA : List Mnemonic :=
  [.ADC, .SBC, .AND, .ORA, .EOR, .ASL, .LSR, .ROL, .ROR, .LDA, .PLA, .TXA, .TYA]

/-- The writers of `X` (10_state.md R12). -/
def writersX : List Mnemonic := [.LDX, .TAX, .TSX, .INX, .DEX]

/-- The writers of `Y` (10_state.md R12). -/
def writersY : List Mnemonic := [.LDY, .TAY, .INY, .DEY]

/-- The writers of `S` (10_state.md R13). -/
def writersS : List Mnemonic := [.TXS, .PHA, .PHP, .PLA, .PLP, .JSR, .RTS, .BRK, .RTI]

/-- The instructions that store to memory (40_step_and_addressing.md R97; 42_stack.md R130). -/
def storers : List Mnemonic :=
  [.STA, .STX, .STY, .ASL, .LSR, .ROL, .ROR, .INC, .DEC, .PHA, .PHP, .JSR, .BRK]

/-! ### Costs -/

/-- The base cost per opcode byte (the `cycles` field of spec/opcode_table.json, 70_reset_and_hazards.md R276), sixteen a
row. -/
def cycleTable : List Nat :=
  [7, 6, 2, 2, 2, 3, 5, 2, 3, 2, 2, 2, 2, 4, 6, 2] ++
  [2, 5, 2, 2, 2, 4, 6, 2, 2, 4, 2, 2, 2, 4, 7, 2] ++
  [6, 6, 2, 2, 3, 3, 5, 2, 4, 2, 2, 2, 4, 4, 6, 2] ++
  [2, 5, 2, 2, 2, 4, 6, 2, 2, 4, 2, 2, 2, 4, 7, 2] ++
  [6, 6, 2, 2, 2, 3, 5, 2, 3, 2, 2, 2, 3, 4, 6, 2] ++
  [2, 5, 2, 2, 2, 4, 6, 2, 2, 4, 2, 2, 2, 4, 7, 2] ++
  [6, 6, 2, 2, 2, 3, 5, 2, 4, 2, 2, 2, 5, 4, 6, 2] ++
  [2, 5, 2, 2, 2, 4, 6, 2, 2, 4, 2, 2, 2, 4, 7, 2] ++
  [2, 6, 2, 2, 3, 3, 3, 2, 2, 2, 2, 2, 4, 4, 4, 2] ++
  [2, 6, 2, 2, 4, 4, 4, 2, 2, 5, 2, 2, 2, 5, 2, 2] ++
  [2, 6, 2, 2, 3, 3, 3, 2, 2, 2, 2, 2, 4, 4, 4, 2] ++
  [2, 5, 2, 2, 4, 4, 4, 2, 2, 4, 2, 2, 4, 4, 4, 2] ++
  [2, 6, 2, 2, 3, 3, 5, 2, 2, 2, 2, 2, 4, 4, 6, 2] ++
  [2, 5, 2, 2, 2, 4, 6, 2, 2, 4, 2, 2, 2, 4, 7, 2] ++
  [2, 6, 2, 2, 3, 3, 5, 2, 2, 2, 2, 2, 4, 4, 6, 2] ++
  [2, 5, 2, 2, 2, 4, 6, 2, 2, 4, 2, 2, 2, 4, 7, 2]

/-- The opcode bytes that cost 1 more on a page crossing (`page_cross_add` of spec/opcode_table.json). -/
def pageCrossOpcodes : List Byte :=
  [0x11#8, 0x19#8, 0x1D#8, 0x31#8, 0x39#8, 0x3D#8, 0x51#8, 0x59#8, 0x5D#8, 0x71#8, 0x79#8, 0x7D#8, 0xB1#8,
   0xB9#8, 0xBC#8, 0xBD#8, 0xBE#8, 0xD1#8, 0xD9#8, 0xDD#8, 0xF1#8, 0xF9#8, 0xFD#8]

/-- The opcode bytes of the branches (`branch_add` of spec/opcode_table.json). -/
def branchOpcodes : List Byte :=
  [0x10#8, 0x30#8, 0x50#8, 0x70#8, 0x90#8, 0xB0#8, 0xD0#8, 0xF0#8]

/-! ### Packed decimal -/

/-- The byte of a two-digit decimal number (43_arithmetic.md R141). -/
def bcd (n : Nat) : Byte := BitVec.ofNat 8 (n / 10 * 16 + n % 10)

end Sys2Proof.Machine
end

