-- ==== Sys2Proof/Certificates/Slice0/Obligations.lean ====
section
/-! DEFINITION. The statements about the model, each from the rules of spec/ that its docstring names. They are stated and
not proved here. `exec` starts from the state in which the instruction's bytes have been fetched (10_state.md R15). -/

open Sys2Proof Sys2Proof.Machine

/-! ### Construction and reset -/

/-- `State.reset` is what construction yields for `resetInput`, with `P.I` = 1, a zero store and no interrupt pending
(70_reset_and_hazards.md R261). The region table and the unspecified registers are the model's choice:
notes/assumptions/1.md and 2.md. -/
def Obligations.ResetStateIsAConstruction : Prop :=
  construct resetInput = .next State.reset ∧ State.reset.p.i = true ∧ (∀ a, State.reset.store.read a = 0x00#8) ∧
    State.reset.irqLine = false ∧ State.reset.nmiPending = false

/-- 70_reset_and_hazards.md R260, R261 and 20_memory.md R34, R46, for every construction input with a valid table: the
registers are `RESET_REGS`, `P.I` is 1, nothing is pending, the store is the initial sources over the zero fill with the
host's writes on top, and `pc` is `INITIAL_PC` modulo 65536 or by default the word at 0xFFFC, read low byte first after those
writes. That the default is read by bus accesses which a device sees is notes/assumptions/23.md (DEDUCED). A host write past
the end of the store is refused, and construction with it (notes/assumptions/25.md). -/
def Obligations.ConstructionFollowsItsInputs : Prop :=
  ∀ c : ConstructionInput, validRegions (c.regions.map descriptorRegion) = true →
    ((∃ w ∈ c.hostWrites, 65536 < w.start + w.bytes.length) → construct c = .refused .rangePastStore) ∧
    ((∀ w ∈ c.hostWrites, w.start + w.bytes.length ≤ 65536) → ∃ t, construct c = .next t ∧
      t.a = c.a ∧ t.x = c.x ∧ t.y = c.y ∧ t.sp = c.sp ∧ t.p = { c.flags with i := true } ∧
      t.regions = c.regions.map descriptorRegion ∧
      t.hasIntLines = c.hasIntLines ∧ t.irqLine = false ∧ t.nmiPending = false ∧
      t.store.wf = true ∧ (∀ a, t.store.read a = byteAfterWrites c.hostWrites a (initialByteAt c.regions a)) ∧
      (∀ n, c.initialPc = some n → t.pc.toNat = n % 65536 ∧ t.deviceLog = []) ∧
      (c.initialPc = none →
        let l := busRead 0xFFFC#16 (t.setDeviceLog [])
        let h := busRead 0xFFFD#16 l.after
        t.pc.toNat = h.value.toNat * 256 + l.value.toNat ∧ t.deviceLog = h.after.deviceLog))

/-- 20_memory.md R33: no core is constructed exactly when a region is empty or reaches past the space, or two regions
share an address. Gaps are allowed. -/
def Obligations.ConstructionRefusesInvalidTables : Prop :=
  ∀ c : ConstructionInput,
    construct c = .refused .invalidRegionTable ↔
      ¬((∀ r ∈ c.regions, 1 ≤ r.length ∧ r.start + r.length ≤ 65536) ∧
        c.regions.Pairwise (fun r t => ∀ a : Nat,
          ¬((r.start ≤ a ∧ a < r.start + r.length) ∧ (t.start ≤ a ∧ a < t.start + t.length))))

/-! ### The address space -/

/-- 20_memory.md R35: in a valid table an address goes to the one region whose half-open interval holds it, or to none;
the order of the list has no effect; no step changes the table. -/
def Obligations.RegionLookupIsHalfOpen : Prop :=
  (∀ rs : List Region, validRegions rs = true →
    (∀ r ∈ rs, ∀ a : Word, r.start ≤ a.toNat → a.toNat < r.start + r.length → regionAt rs a = some r) ∧
    (∀ a : Word, (∀ r ∈ rs, ¬(r.start ≤ a.toNat ∧ a.toNat < r.start + r.length)) → regionAt rs a = none) ∧
    (∀ rs' : List Region, rs.Perm rs' → ∀ a : Word, regionAt rs' a = regionAt rs a)) ∧
  (∀ s t : State, step s = .next t → t.regions = s.regions)

/-- 20_memory.md R36: a bus read by the kind of the region. It never changes the store, and calls a device exactly once
when the address is a device's and not otherwise. -/
def Obligations.BusReadFollowsRegionKind : Prop :=
  ∀ (a : Word) (s : State),
    (kindAt s a = none → busRead a s = { value := 0xFF#8, after := s }) ∧
    (∀ id, kindAt s a = some (.device id) →
      busRead a s =
        { value := Config.deviceAnswer id s.deviceLog a
          after := { s with deviceLog := .call id a none :: s.deviceLog } }) ∧
    (kindAt s a = some .ram ∨ kindAt s a = some .rom → busRead a s = { value := s.store.read a.toNat, after := s })

/-- 20_memory.md R37: a bus write by the kind of the region: discarded, one call of the device, or stored in `RAM` and
nowhere else. The store is in its canonical form, an invariant of the machine (`StepKeepsInvariant`). -/
def Obligations.BusWriteFollowsRegionKind : Prop :=
  ∀ (a : Word) (v : Byte) (s : State),
    (kindAt s a = none → busWrite a v s = s) ∧
    (∀ id, kindAt s a = some (.device id) →
      busWrite a v s = { s with deviceLog := .call id a (some v) :: s.deviceLog }) ∧
    (kindAt s a = some .rom → busWrite a v s = s) ∧
    (kindAt s a = some .ram → s.store.wf = true →
      busWrite a v s = { s with store := (busWrite a v s).store } ∧
        ∀ b, (busWrite a v s).store.read b = if b = a.toNat then v else s.store.read b)

/-- 20_memory.md R37 to R39, R43: no step changes a backing byte that is not in a `RAM` region: `ROM` keeps its contents,
and so do the bytes under `DEVICE` regions and at unmapped addresses. -/
def Obligations.ProtectedBytesNeverChange : Prop :=
  ∀ s t : State, step s = .next t →
    ∀ a : Word, kindAt s a ≠ some .ram → t.store.read a.toNat = s.store.read a.toNat

/-- 20_memory.md R45, R46: `read_range` gives the backing bytes and `write_range` sets exactly the bytes of its range,
whatever the regions; neither calls a device; a range past the end is refused. -/
def Obligations.BypassReadsAndWritesTheStore : Prop :=
  ∀ (start length : Nat) (bytes : List Byte) (s : State),
    (start + length ≤ 65536 →
      ∃ vs, readRange start length s = .next vs ∧ vs.length = length ∧
        ∀ i (h : i < vs.length), vs[i] = s.store.read (start + i)) ∧
    (65536 < start + length → readRange start length s = .refused .rangePastStore) ∧
    (start + bytes.length ≤ 65536 → s.store.wf = true →
      ∃ t, writeRange start bytes s = .next t ∧ t = { s with store := t.store } ∧ t.store.wf = true ∧
        (∀ i (h : i < bytes.length), t.store.read (start + i) = bytes[i]) ∧
        (∀ a, a < start ∨ start + bytes.length ≤ a → t.store.read a = s.store.read a)) ∧
    (65536 < start + bytes.length → writeRange start bytes s = .refused .rangePastStore)

/-! ### The step and its batched form -/

/-- 40_step_and_addressing.md R80, 60_exceptions.md R230: from every state a step completes; nothing makes it fault or be
refused. -/
def Obligations.StepAlwaysCompletes : Prop :=
  ∀ s : State, ∃ t, step s = .next t

/-- 40_step_and_addressing.md R80, R82: when no interrupt is due and the bytes at `pc` (modulo 65536, in `RAM` or `ROM`)
decode to `i`, a step is `exec i` with `pc` past them. -/
def Obligations.StepRunsTheDecodedInstruction : Prop :=
  ∀ (s : State) (i : Instr) (bytes : List Byte),
    decode bytes = .ok (i, []) → dueInterrupt s = none →
    (∀ k (h : k < bytes.length), storageAt s (s.pc + BitVec.ofNat 16 k) = true ∧
      s.store.read (s.pc + BitVec.ofNat 16 k).toNat = bytes[k]) →
    step s = exec i (s.setPc (s.pc + BitVec.ofNat 16 bytes.length))

/-- 20_memory.md R38, 47_flags_system.md R220: `pc` in unmapped space walks through it one byte a step, and nothing else
changes. -/
def Obligations.UnmappedFetchWalksOn : Prop :=
  ∀ s : State, dueInterrupt s = none → kindAt s s.pc = none →
    step s = .next { s with pc := s.pc + 1#16, cost := 2 }

/-- 40_step_and_addressing.md R99: whatever was fetched, and from wherever, an instruction that is no taken control
transfer moves `pc` by its length, modulo 65536. -/
def Obligations.ProgramCounterMovesByTheLength : Prop :=
  ∀ s : State, dueInterrupt s = none →
    let i := (fetchInstr s).instr
    (i.mnemonic ∉ controlFlow ∨
      ∃ off, ∃ f ∈ branchForms off, i = f.instr ∧ f.cond s.p = false) →
    ∃ t, step s = .next t ∧ t.pc = s.pc + BitVec.ofNat 16 i.length

/-- 40_step_and_addressing.md R81: `run_n(0)` changes nothing; `run_n(k)` ends where `k` steps end; a batch of `j + k` is a
batch of `j` and then one of `k`; the number returned is the sum of the steps' costs. -/
def Obligations.BatchIsRepeatedStep : Prop :=
  (∀ s, runN 0 s = .next { after := s, total := 0 }) ∧
  (∀ s t, step s = .next t → runN 1 s = .next { after := t, total := t.cost }) ∧
  (∀ k s, ∃ r, runN k s = .next r ∧ Host.Core.run Sys2Proof.core k s = .next r.after) ∧
  (∀ j k s, ∃ r q, runN j s = .next r ∧ runN k r.after = .next q ∧
    runN (j + k) s = .next { after := q.after, total := r.total + q.total })

/-- 70_reset_and_hazards.md R264: the host's assignment of `pc` reduces the value modulo 65536 and changes nothing else. -/
def Obligations.HostAssignsTheProgramCounter : Prop :=
  ∀ (n : Int) (s : State),
    assignPc n s = { s with pc := (assignPc n s).pc } ∧ ((assignPc n s).pc.toNat : Int) = n % 65536

/-- 40_step_and_addressing.md R83, R98, 20_memory.md R49: where every address is one device's, its history shows every bus
access of an instruction, in order: the fetches at rising addresses, then the pointer, low byte first, then the data; a
read-modify-write reads and then writes; JSR and BRK push the high byte first; RTS and RTI pull upwards. -/
def Obligations.DevicesSeeAccessesInOrder : Prop :=
  ∀ (id : Nat) (s : State), (∀ a, kindAt s a = some (.device id)) →
    let rd := fun (a : Word) (log : List DeviceEvent) => DeviceEvent.call id a none :: log
    let wr := fun (a : Word) (v : Byte) (log : List DeviceEvent) => DeviceEvent.call id a (some v) :: log
    let ans := Config.deviceAnswer id
    ((fetchInstr s).after.deviceLog =
      (List.range (fetchInstr s).instr.length).foldl (fun log k => rd (s.pc + BitVec.ofNat 16 k) log) s.deviceLog) ∧
    (∀ b, ∃ t, exec (.ldaIzy b) s = .next t ∧
      let l1 := rd (zeroPage b) s.deviceLog
      let l2 := rd (zeroPage (b + 1#8)) l1
      let ea := word (ans l1 (zeroPage (b + 1#8))) (ans s.deviceLog (zeroPage b)) + s.y.setWidth 16
      t.a = ans l2 ea ∧ t.deviceLog = rd ea l2) ∧
    (∀ w, ∃ t, exec (.incAbs w) s = .next t ∧
      t.deviceLog = wr w (ans s.deviceLog w + 1#8) (rd w s.deviceLog)) ∧
    (∀ w, ∃ t, exec (.jmpInd w) s = .next t ∧
      t.deviceLog = rd (word (hi w) (lo w + 1#8)) (rd w s.deviceLog)) ∧
    (∀ w, ∃ t, exec (.jsr w) s = .next t ∧
      t.deviceLog = wr (stackAddr (s.sp - 1#8)) (lo (s.pc - 1#16)) (wr (stackAddr s.sp) (hi (s.pc - 1#16)) s.deviceLog)) ∧
    (∃ t, exec .rts s = .next t ∧
      t.deviceLog = rd (stackAddr (s.sp + 2#8)) (rd (stackAddr (s.sp + 1#8)) s.deviceLog)) ∧
    (∃ t, exec .brk s = .next t ∧
      t.deviceLog =
        rd 0xFFFF#16 (rd 0xFFFE#16 (wr (stackAddr (s.sp - 2#8)) (s.p.pack true)
          (wr (stackAddr (s.sp - 1#8)) (lo (s.pc + 1#16)) (wr (stackAddr s.sp) (hi (s.pc + 1#16)) s.deviceLog))))) ∧
    (∃ t, exec .rti s = .next t ∧
      t.deviceLog =
        rd (stackAddr (s.sp + 3#8)) (rd (stackAddr (s.sp + 2#8)) (rd (stackAddr (s.sp + 1#8)) s.deviceLog)))

/-! ### Rules about all instructions -/

/-- 10_state.md R17: an instruction that is not listed against a flag leaves it unchanged; the branches write none. -/
def Obligations.FlagsChangeOnlyByTheirWriters : Prop :=
  ∀ (i : Instr) (s t : State), exec i s = .next t →
    (i.mnemonic ∉ writersNZ → t.p.n = s.p.n ∧ t.p.z = s.p.z) ∧
    (i.mnemonic ∉ writersV → t.p.v = s.p.v) ∧
    (i.mnemonic ∉ writersD → t.p.d = s.p.d) ∧
    (i.mnemonic ∉ writersI → t.p.i = s.p.i) ∧
    (i.mnemonic ∉ writersC → t.p.c = s.p.c)

/-- 10_state.md R11 to R13, R15: `A`, `X`, `Y`, `S` and `pc` change by the instructions listed for them only. -/
def Obligations.RegistersChangeOnlyByTheirWriters : Prop :=
  ∀ (i : Instr) (s t : State), exec i s = .next t →
    (i.mnemonic ∉ writersA → t.a = s.a) ∧
    (i.mnemonic ∉ writersX → t.x = s.x) ∧
    (i.mnemonic ∉ writersY → t.y = s.y) ∧
    (i.mnemonic ∉ writersS → t.sp = s.sp) ∧
    (i.mnemonic ∉ controlFlow → t.pc = s.pc)

/-- 40_step_and_addressing.md R97, R83: an instruction that is not a store, a read-modify-write or a push leaves every byte
of memory unchanged, whatever its operand form. -/
def Obligations.OnlyStorersChangeMemory : Prop :=
  ∀ (i : Instr) (s t : State), exec i s = .next t → i.mnemonic ∉ storers →
    ∀ a, t.store.read a = s.store.read a

/-- 60_exceptions.md R233 to R235, 20_memory.md R35: no step changes the region table, the presence of the lines or the
IRQ line; the NMI latch is cleared by NMI entry and by nothing else. -/
def Obligations.StepKeepsConfigurationAndLines : Prop :=
  ∀ s t : State, step s = .next t →
    t.regions = s.regions ∧ t.hasIntLines = s.hasIntLines ∧ t.irqLine = s.irqLine ∧
      t.nmiPending = (s.nmiPending && !s.hasIntLines)

/-- Construction yields the invariant: a store in canonical form over a valid region table (20_memory.md R33). -/
def Obligations.InvariantHoldsAfterConstruction : Prop :=
  State.reset.Inv ∧ ∀ (c : ConstructionInput) (t : State), construct c = .next t → t.Inv

/-- Every step keeps the invariant, from every state that has it, reachable or not. -/
def Obligations.StepKeepsInvariant : Prop :=
  ∀ s t : State, s.Inv → step s = .next t → t.Inv

/-- 20_memory.md R36, R43, R45: backing bytes under `DEVICE` regions and at unmapped addresses are seen through the bypass
only: two states that differ in nothing else step to states that differ in nothing else. Both stores are in the canonical
form, an invariant of the machine (`StepKeepsInvariant`). -/
def Obligations.HiddenBytesDoNotMatter : Prop :=
  ∀ s t s' t' : State, s.store.wf = true → t.store.wf = true → AgreeOnBus s t →
    step s = .next s' → step t = .next t' → AgreeOnBus s' t'

/-- 70_reset_and_hazards.md R275, R276: the cost of every instruction is its table value, plus 1 at most where the table
says a page crossing adds, plus 2 at most for a branch. -/
def Obligations.CostIsTheTableValue : Prop :=
  ∀ (i : Instr) (s t : State), i.wf = true → exec i s = .next t →
    let base := cycleTable.getD i.opcode.toNat 0
    base ≤ t.cost ∧
    t.cost ≤ base + (if i.opcode ∈ pageCrossOpcodes then 1 else 0) + (if i.opcode ∈ branchOpcodes then 2 else 0)

/-! ### Encoding -/

/-- 30_encoding.md R60 to R64: decoding an encoded well-formed instruction gives it back, every operand value included, and
leaves the bytes after it. -/
def Obligations.DecodeOfEncode : Prop :=
  ∀ (i : Instr) (rest : List Byte), i.wf = true → decode (encode i ++ rest) = .ok (i, rest)

/-- 30_encoding.md R60 to R67: what decodes is a well-formed instruction, whose encoding is the bytes read. -/
def Obligations.EncodeOfDecode : Prop :=
  ∀ (bytes rest : List Byte) (i : Instr), decode bytes = .ok (i, rest) → i.wf = true ∧ encode i ++ rest = bytes

/-- 30_encoding.md R67: decoding is total: every opcode byte decodes whatever the operand bytes, to ILL in mode IMP exactly
for the 105 illegal bytes, and the opcode alone selects mnemonic, mode and length. -/
def Obligations.DecodingIsTotal : Prop :=
  illegalOpcodes.length = 105 ∧ illegalOpcodes.Nodup ∧
  ∀ op b1 b2 b1' b2' : Byte,
    (∃ i rest, decode [op, b1, b2] = .ok (i, rest)) ∧
    (decodeOp op b1 b2).mnemonic = (decodeOp op b1' b2').mnemonic ∧
    (decodeOp op b1 b2).mode = (decodeOp op b1' b2').mode ∧
    ((decodeOp op b1 b2).mnemonic = .ILL ↔ op ∈ illegalOpcodes) ∧
    (op ∈ illegalOpcodes → (decodeOp op b1 b2).mode = .IMP)

/-- 30_encoding.md R63, R64 on words written out, one of each family and the asymmetries that R63 points out. -/
def Obligations.SampleWordsDecode : Prop :=
  decode [0xA9#8, 0x44#8] = .ok (.ldaImm 0x44#8, []) ∧
  decode [0x8D#8, 0x00#8, 0x02#8] = .ok (.staAbs 0x0200#16, []) ∧
  decode [0xB6#8, 0xFF#8] = .ok (.ldxZpy 0xFF#8, []) ∧
  decode [0x96#8, 0xFE#8] = .ok (.stxZpy 0xFE#8, []) ∧
  decode [0xBE#8, 0x34#8, 0x12#8] = .ok (.ldxAby 0x1234#16, []) ∧
  decode [0x61#8, 0x10#8] = .ok (.adcIzx 0x10#8, []) ∧
  decode [0xF1#8, 0x10#8] = .ok (.sbcIzy 0x10#8, []) ∧
  decode [0x2C#8, 0x00#8, 0x03#8] = .ok (.bitAbs 0x0300#16, []) ∧
  decode [0x7E#8, 0xFF#8, 0x02#8] = .ok (.rorAbx 0x02FF#16, []) ∧
  decode [0x6C#8, 0xFF#8, 0x03#8] = .ok (.jmpInd 0x03FF#16, []) ∧
  decode [0x20#8, 0x34#8, 0x12#8] = .ok (.jsr 0x1234#16, []) ∧
  decode [0xD0#8, 0x10#8] = .ok (.bne 0x10#8, []) ∧
  decode [0x48#8] = .ok (.pha, []) ∧
  decode [0x00#8] = .ok (.brk, []) ∧
  decode [0x89#8] = .ok (.ill 0x89#8, []) ∧
  decode [0x9E#8, 0x00#8, 0x02#8] = .ok (.ill 0x9E#8, [0x00#8, 0x02#8])

/-! ### Operand forms -/

/-- 40_step_and_addressing.md R87 to R94, R97: the effective address of every memory mode, as numbers: zero-page sums
modulo 256, indexed sums modulo 65536, pointers whose second byte stays in the zero page, each read low byte first. -/
def Obligations.EffectiveAddresses : Prop :=
  ∀ (b : Byte) (w : Word) (s : State),
    ((resolve (.zp b) s).ea.toNat = b.toNat ∧ (resolve (.zp b) s).after = s) ∧
    ((resolve (.zpx b) s).ea.toNat = (b.toNat + s.x.toNat) % 256 ∧ (resolve (.zpx b) s).after = s) ∧
    ((resolve (.zpy b) s).ea.toNat = (b.toNat + s.y.toNat) % 256 ∧ (resolve (.zpy b) s).after = s) ∧
    ((resolve (.abs w) s).ea = w ∧ (resolve (.abs w) s).after = s) ∧
    ((resolve (.abx w) s).ea.toNat = (w.toNat + s.x.toNat) % 65536 ∧ (resolve (.abx w) s).after = s) ∧
    ((resolve (.aby w) s).ea.toNat = (w.toNat + s.y.toNat) % 65536 ∧ (resolve (.aby w) s).after = s) ∧
    (let z := (b.toNat + s.x.toNat) % 256
     let l := busRead (BitVec.ofNat 16 z) s
     let h := busRead (BitVec.ofNat 16 ((z + 1) % 256)) l.after
     (resolve (.izx b) s).ea.toNat = h.value.toNat * 256 + l.value.toNat ∧ (resolve (.izx b) s).after = h.after) ∧
    (let l := busRead (BitVec.ofNat 16 b.toNat) s
     let h := busRead (BitVec.ofNat 16 ((b.toNat + 1) % 256)) l.after
     (resolve (.izy b) s).ea.toNat = (h.value.toNat * 256 + l.value.toNat + s.y.toNat) % 65536 ∧
       (resolve (.izy b) s).after = h.after)

/-- 40_step_and_addressing.md R91, R92, R94, R97, 70_reset_and_hazards.md R276: a read-class operand in memory is one bus
read at the effective address; a page is crossed when the low byte of the base plus the index passes 255, which costs 1
more, and costs nothing in the modes that do not index a word. -/
def Obligations.ReadOperandsAndPageCrossing : Prop :=
  (∀ (m : MemOperand) (s : State),
    (readOperand (.mem m) s).value = (busRead (resolve m s).ea (resolve m s).after).value ∧
    (readOperand (.mem m) s).after = (busRead (resolve m s).ea (resolve m s).after).after) ∧
  (∀ (b : Byte) (w : Word) (s : State),
    (readOperand (.imm b) s).value = b ∧ (readOperand (.imm b) s).after = s ∧ (readOperand (.imm b) s).cost = 2 ∧
    (readOperand (.mem (.zp b)) s).cost = 3 ∧
    (readOperand (.mem (.zpx b)) s).cost = 4 ∧
    (readOperand (.mem (.zpy b)) s).cost = 4 ∧
    (readOperand (.mem (.abs w)) s).cost = 4 ∧
    (readOperand (.mem (.abx w)) s).cost = (if 255 < w.toNat % 256 + s.x.toNat then 5 else 4) ∧
    (readOperand (.mem (.aby w)) s).cost = (if 255 < w.toNat % 256 + s.y.toNat then 5 else 4) ∧
    (readOperand (.mem (.izx b)) s).cost = 6 ∧
    (readOperand (.mem (.izy b)) s).cost =
      (if 255 < (busRead (BitVec.ofNat 16 b.toNat) s).value.toNat + s.y.toNat then 6 else 5))

/-- 42_stack.md R130, R131, R136: a push writes at `0x0100 | S` and then lowers `S`; a pull raises `S` and then reads; both
wrap modulo 256, so that the stack never leaves page 1. -/
def Obligations.PushAndPullStayInPageOne : Prop :=
  ∀ (v : Byte) (s : State),
    push v s = { busWrite (stackAddr s.sp) v s with sp := s.sp - 1#8 } ∧
    (stackAddr s.sp).toNat = 256 + s.sp.toNat ∧
    (push v s).sp.toNat = (s.sp.toNat + 255) % 256 ∧
    (pull s).value = (busRead (stackAddr (s.sp + 1#8)) s).value ∧
    (pull s).after = { (busRead (stackAddr (s.sp + 1#8)) s).after with sp := s.sp + 1#8 } ∧
    (pull s).after.sp.toNat = (s.sp.toNat + 1) % 256 ∧
    (kindAt s (stackAddr s.sp) = some .ram → s.store.wf = true →
      (pull (push v s)).value = v ∧ (pull (push v s)).after.sp = s.sp)

/-- 10_state.md R18 to R20: `SetNZ`, and the status byte: bit by bit, bit 5 always 1, bit 4 the argument, and unpacking
gives the flags back. -/
def Obligations.StatusBytePacksAndUnpacks : Prop :=
  ∀ (p : Flags) (b : Bool) (v : Byte),
    (p.setNZ v = { p with n := decide (128 ≤ v.toNat), z := decide (v.toNat = 0) }) ∧
    (p.pack b).toNat =
      128 * p.n.toNat + 64 * p.v.toNat + 32 + 16 * b.toNat + 8 * p.d.toNat + 4 * p.i.toNat + 2 * p.z.toNat + p.c.toNat ∧
    Flags.unpack (p.pack b) = p ∧
    (Flags.unpack v).pack true = (v ||| 0x30#8) ∧ (Flags.unpack v).pack false = ((v ||| 0x20#8) &&& 0xEF#8)

/-! ### Loads, stores, transfers -/

/-- 41_load_store_transfer.md R110 to R112: LDA, LDX, LDY in every form: the register becomes `M`, N and Z are set from it,
nothing else changes but what the read does to a device. -/
def Obligations.LoadInstructions : Prop :=
  ∀ (b : Byte) (w : Word) (s : State),
    (∀ f ∈ ldaForms b w, f.instr.opcode = f.opcode ∧
      let r := readOperand f.operand s
      exec f.instr s = .next { s with
        a := r.value, p := { s.p with n := r.value.getLsbD 7, z := decide (r.value = 0#8) }
        deviceLog := r.after.deviceLog, cost := r.cost }) ∧
    (∀ f ∈ ldxForms b w, f.instr.opcode = f.opcode ∧
      let r := readOperand f.operand s
      exec f.instr s = .next { s with
        x := r.value, p := { s.p with n := r.value.getLsbD 7, z := decide (r.value = 0#8) }
        deviceLog := r.after.deviceLog, cost := r.cost }) ∧
    (∀ f ∈ ldyForms b w, f.instr.opcode = f.opcode ∧
      let r := readOperand f.operand s
      exec f.instr s = .next { s with
        y := r.value, p := { s.p with n := r.value.getLsbD 7, z := decide (r.value = 0#8) }
        deviceLog := r.after.deviceLog, cost := r.cost })

/-- 41_load_store_transfer.md R113 to R115: STA, STX, STY in every form: one write of the register at the effective address
`(resolve operand s).ea`; every other byte, every register and every flag is unchanged, and the cost does not depend on a
page crossing. -/
def Obligations.StoreInstructions : Prop :=
  ∀ (b : Byte) (w : Word) (s : State) (v : Byte) (f : WriteForm),
    (f ∈ staForms b w ∧ v = s.a ∨ f ∈ stxForms b w ∧ v = s.x ∨ f ∈ styForms b w ∧ v = s.y) →
    f.instr.opcode = f.opcode ∧
    let e := resolve f.operand s
    ∃ t, exec f.instr s = .next t ∧
      t = { s with
        store := t.store, deviceLog := logAfterWrite s e.ea v e.after.deviceLog
        cost := cycleTable.getD f.opcode.toNat 0 } ∧
      StoresByte s t e.ea v

/-- 41_load_store_transfer.md R116 to R121: the transfers. All but TXS set N and Z from the byte moved. -/
def Obligations.TransferInstructions : Prop :=
  ∀ s : State,
    let nz := fun v : Byte => { s.p with n := v.getLsbD 7, z := decide (v = 0#8) }
    (encode .tax = [0xAA#8] ∧ encode .tay = [0xA8#8] ∧ encode .txa = [0x8A#8] ∧ encode .tya = [0x98#8] ∧
      encode .tsx = [0xBA#8] ∧ encode .txs = [0x9A#8]) ∧
    exec .tax s = .next { s with x := s.a, p := nz s.a, cost := 2 } ∧
    exec .tay s = .next { s with y := s.a, p := nz s.a, cost := 2 } ∧
    exec .txa s = .next { s with a := s.x, p := nz s.x, cost := 2 } ∧
    exec .tya s = .next { s with a := s.y, p := nz s.y, cost := 2 } ∧
    exec .tsx s = .next { s with x := s.sp, p := nz s.sp, cost := 2 } ∧
    exec .txs s = .next { s with sp := s.x, cost := 2 }

/-! ### The stack instructions -/

/-- 42_stack.md R132, R133: PHA and PHP write one byte at `0x0100 | S` and lower `S`; no flag changes. -/
def Obligations.PushInstructions : Prop :=
  ∀ s : State,
    (encode .pha = [0x48#8] ∧ encode .php = [0x08#8]) ∧
    (∃ t, exec .pha s = .next t ∧
      t = { s with
        store := t.store, deviceLog := logAfterWrite s (stackAddr s.sp) s.a s.deviceLog, sp := s.sp - 1#8, cost := 3 } ∧
      StoresByte s t (stackAddr s.sp) s.a) ∧
    (∃ t, exec .php s = .next t ∧
      t = { s with
        store := t.store, deviceLog := logAfterWrite s (stackAddr s.sp) (s.p.pack true) s.deviceLog
        sp := s.sp - 1#8, cost := 3 } ∧
      StoresByte s t (stackAddr s.sp) (s.p.pack true))

/-- 42_stack.md R134, R135: PLA and PLP read one byte at `0x0100 | (S + 1)`: PLA sets N and Z from it, PLP loads all six
flags. -/
def Obligations.PullInstructions : Prop :=
  ∀ s : State,
    let r := busRead (stackAddr (s.sp + 1#8)) s
    (encode .pla = [0x68#8] ∧ encode .plp = [0x28#8]) ∧
    exec .pla s = .next { s with
      a := r.value, p := { s.p with n := r.value.getLsbD 7, z := decide (r.value = 0#8) }, sp := s.sp + 1#8
      deviceLog := r.after.deviceLog, cost := 4 } ∧
    exec .plp s = .next { s with
      p := { n := r.value.getLsbD 7, v := r.value.getLsbD 6, d := r.value.getLsbD 3, i := r.value.getLsbD 2
             z := r.value.getLsbD 1, c := r.value.getLsbD 0 }
      sp := s.sp + 1#8, deviceLog := r.after.deviceLog, cost := 4 }

/-! ### Logic -/

/-- 44_logic.md R160 to R162: AND, ORA, EOR in every form, bit by bit, with N and Z of the result. -/
def Obligations.LogicInstructions : Prop :=
  ∀ (b : Byte) (w : Word) (s : State) (f : ReadForm) (op : Bool → Bool → Bool),
    (f ∈ andForms b w ∧ op = (fun x y => x && y) ∨ f ∈ oraForms b w ∧ op = (fun x y => x || y) ∨
      f ∈ eorForms b w ∧ op = (fun x y => x ^^ y)) →
    f.instr.opcode = f.opcode ∧
    let r := readOperand f.operand s
    ∃ v : Byte, (∀ k < 8, v.getLsbD k = op (s.a.getLsbD k) (r.value.getLsbD k)) ∧
      exec f.instr s = .next { s with
        a := v, p := { s.p with n := v.getLsbD 7, z := decide (v.toNat = 0) }, deviceLog := r.after.deviceLog
        cost := r.cost }

/-- 44_logic.md R163: BIT: Z from `A & M`, N and V from `M` alone; `A` and `C` are unchanged. -/
def Obligations.BitInstruction : Prop :=
  ∀ (b : Byte) (w : Word) (s : State), ∀ f ∈ bitForms b w, f.instr.opcode = f.opcode ∧
    let r := readOperand f.operand s
    exec f.instr s = .next { s with
      p := { s.p with
        z := decide (∀ k : Fin 8, (s.a.getLsbD k && r.value.getLsbD k) = false)
        n := decide (128 ≤ r.value.toNat), v := decide (64 ≤ r.value.toNat % 128) }
      deviceLog := r.after.deviceLog, cost := r.cost }

/-! ### Arithmetic -/

/-- 43_arithmetic.md R140: ADC with `P.D` = 0 in every form: the sum modulo 256, C its unsigned overflow, V its signed
overflow, N and Z of the result. -/
def Obligations.AdcBinaryMode : Prop :=
  ∀ (b : Byte) (w : Word) (s : State), s.p.d = false → ∀ f ∈ adcForms b w, f.instr.opcode = f.opcode ∧
    let r := readOperand f.operand s
    let t := s.a.toNat + r.value.toNat + s.p.c.toNat
    let q := s.a.toInt + r.value.toInt + s.p.c.toNat
    exec f.instr s = .next { s with
      a := BitVec.ofNat 8 t
      p := { s.p with
        n := decide (128 ≤ t % 256), z := decide (t % 256 = 0), c := decide (255 < t), v := decide (q < -128 ∨ 127 < q) }
      deviceLog := r.after.deviceLog, cost := r.cost }

/-- 43_arithmetic.md R142: SBC with `P.D` = 0 in every form: the difference less the borrow modulo 256, C = 1 when there is
no borrow, V the signed overflow, N and Z of the result. -/
def Obligations.SbcBinaryMode : Prop :=
  ∀ (b : Byte) (w : Word) (s : State), s.p.d = false → ∀ f ∈ sbcForms b w, f.instr.opcode = f.opcode ∧
    let r := readOperand f.operand s
    let t : Int := (s.a.toNat : Int) - r.value.toNat - (1 - (s.p.c.toNat : Int))
    let q : Int := s.a.toInt - r.value.toInt - (1 - (s.p.c.toNat : Int))
    exec f.instr s = .next { s with
      a := BitVec.ofInt 8 t
      p := { s.p with
        n := decide (128 ≤ t % 256), z := decide (t % 256 = 0), c := decide (0 ≤ t), v := decide (q < -128 ∨ 127 < q) }
      deviceLog := r.after.deviceLog, cost := r.cost }

/-- 43_arithmetic.md R141: ADC with `P.D` = 1 in every form, by the rule's pseudocode: Z of the binary sum, N and V of the
sum before the high digit is corrected, C and `A` after. -/
def Obligations.AdcDecimalMode : Prop :=
  ∀ (b : Byte) (w : Word) (s : State), s.p.d = true → ∀ f ∈ adcForms b w, f.instr.opcode = f.opcode ∧
    let r := readOperand f.operand s
    let m := r.value
    let c := s.p.c.toNat
    let lo0 := (s.a.toNat &&& 0x0F) + (m.toNat &&& 0x0F) + c
    let lo1 := if 0x0A ≤ lo0 then ((lo0 + 0x06) &&& 0x0F) + 0x10 else lo0
    let t := (s.a.toNat &&& 0xF0) + (m.toNat &&& 0xF0) + lo1
    let t' := if 0xA0 ≤ t then t + 0x60 else t
    exec f.instr s = .next { s with
      a := BitVec.ofNat 8 t'
      p := { s.p with
        z := decide ((s.a.toNat + m.toNat + c) &&& 0xFF = 0)
        n := t.testBit 7
        v := (!(s.a.getLsbD 7 ^^ m.getLsbD 7)) && (s.a.getLsbD 7 ^^ t.testBit 7)
        c := decide (0x100 ≤ t') }
      deviceLog := r.after.deviceLog, cost := r.cost }

/-- 43_arithmetic.md R143: SBC with `P.D` = 1 in every form: the four flags are those of the binary subtraction on the same
inputs, and `A` is the digit-wise difference of the rule's pseudocode. -/
def Obligations.SbcDecimalMode : Prop :=
  ∀ (b : Byte) (w : Word) (s : State), s.p.d = true → ∀ f ∈ sbcForms b w, f.instr.opcode = f.opcode ∧
    let r := readOperand f.operand s
    let m := r.value
    let tb := s.a.toNat + (m ^^^ 0xFF#8).toNat + s.p.c.toNat
    let lo0 : Int := ((s.a.toNat &&& 0x0F : Nat) : Int) - ((m.toNat &&& 0x0F : Nat) : Int) + (s.p.c.toNat : Int) - 1
    let lo1 : Int := if lo0 < 0 then (lo0 - 0x06) % 0x10 - 0x10 else lo0
    let d : Int := ((s.a.toNat &&& 0xF0 : Nat) : Int) - ((m.toNat &&& 0xF0 : Nat) : Int) + lo1
    let d' : Int := if d < 0 then d - 0x60 else d
    exec f.instr s = .next { s with
      a := BitVec.ofInt 8 d'
      p := { s.p with
        n := tb.testBit 7, z := decide (tb % 256 = 0), c := decide (0xFF < tb)
        v := (s.a.getLsbD 7 ^^ m.getLsbD 7) && (s.a.getLsbD 7 ^^ tb.testBit 7) }
      deviceLog := r.after.deviceLog, cost := r.cost }

/-- 43_arithmetic.md R141, R143: on two-digit decimal numbers, decimal ADC gives the decimal sum modulo 100 with C the
decimal carry, and decimal SBC the decimal difference modulo 100 with C = 0 for a decimal borrow. -/
def Obligations.DecimalModeIsCorrectOnBcd : Prop :=
  ∀ (m n : Nat) (p : Flags), m < 100 → n < 100 → p.d = true →
    (adcFlags (bcd m) (bcd n) p).value = bcd ((m + n + p.c.toNat) % 100) ∧
    (adcFlags (bcd m) (bcd n) p).flags.c = decide (100 ≤ m + n + p.c.toNat) ∧
    (sbcFlags (bcd m) (bcd n) p).value = bcd ((m + 99 + p.c.toNat - n) % 100) ∧
    (sbcFlags (bcd m) (bcd n) p).flags.c = decide (n + 1 ≤ m + p.c.toNat)

/-- 43_arithmetic.md R144 to R146: CMP, CPX, CPY in every form: C is the unsigned comparison, N and Z are of the difference
modulo 256; V, D, I, every register and memory are unchanged, and neither C nor D on entry matters. -/
def Obligations.CompareInstructions : Prop :=
  ∀ (b : Byte) (w : Word) (s : State) (f : ReadForm) (v : Byte),
    (f ∈ cmpForms b w ∧ v = s.a ∨ f ∈ cpxForms b w ∧ v = s.x ∨ f ∈ cpyForms b w ∧ v = s.y) →
    f.instr.opcode = f.opcode ∧
    let r := readOperand f.operand s
    exec f.instr s = .next { s with
      p := { s.p with
        n := decide (128 ≤ (v.toNat + 256 - r.value.toNat) % 256), z := decide (v.toNat = r.value.toNat)
        c := decide (r.value.toNat ≤ v.toNat) }
      deviceLog := r.after.deviceLog, cost := r.cost }

/-! ### Shifts, increments, decrements -/

/-- 45_shift_incdec.md R170 to R175: the six functions as numbers: the result, the carry out (INC and DEC leave C), N and Z
of the result, and no other flag. -/
def Obligations.ShiftAndIncrementFunctions : Prop :=
  ∀ (v : Byte) (p : Flags),
    let nz := fun r : Nat => { p with n := decide (128 ≤ r), z := decide (r = 0) }
    let n := v.toNat
    (let r := n * 2 % 256
     aslByte v p = { value := BitVec.ofNat 8 r, flags := { nz r with c := decide (128 ≤ n) } }) ∧
    (let r := n / 2
     lsrByte v p = { value := BitVec.ofNat 8 r, flags := { p with n := false, z := decide (r = 0), c := decide (n % 2 = 1) } }) ∧
    (let r := (n * 2 + p.c.toNat) % 256
     rolByte v p = { value := BitVec.ofNat 8 r, flags := { nz r with c := decide (128 ≤ n) } }) ∧
    (let r := n / 2 + 128 * p.c.toNat
     rorByte v p = { value := BitVec.ofNat 8 r, flags := { nz r with c := decide (n % 2 = 1) } }) ∧
    (let r := (n + 1) % 256
     incByte v p = { value := BitVec.ofNat 8 r, flags := nz r }) ∧
    (let r := (n + 255) % 256
     decByte v p = { value := BitVec.ofNat 8 r, flags := nz r })

/-- 45_shift_incdec.md R180, R170 to R173: ASL, LSR, ROL, ROR on the accumulator: `A` and the flags by the function, no bus
access, cost 2. -/
def Obligations.AccumulatorShifts : Prop :=
  ∀ s : State, ∀ f ∈ accForms, f.instr.opcode = f.opcode ∧
    exec f.instr s = .next { s with a := (f.f s.a s.p).value, p := (f.f s.a s.p).flags, cost := 2 }

/-- 45_shift_incdec.md R180, R170 to R175: ASL, LSR, ROL, ROR, INC, DEC on memory in every form: one read and then one write
at `(resolve operand s).ea`, the flags by the function whether or not the write takes effect, every other byte and every
register unchanged. -/
def Obligations.ReadModifyWriteOnMemory : Prop :=
  ∀ (b : Byte) (w : Word) (s : State), ∀ f ∈ rmwForms b w, f.instr.opcode = f.opcode ∧
    let e := resolve f.operand s
    let v := busRead e.ea e.after
    let r := f.f v.value s.p
    ∃ t, exec f.instr s = .next t ∧
      t = { s with
        p := r.flags, store := t.store, deviceLog := logAfterWrite s e.ea r.value v.after.deviceLog, cost := f.cost } ∧
      StoresByte s t e.ea r.value

/-- 45_shift_incdec.md R176 to R179: INX, INY, DEX, DEY: modulo 256, N and Z of the result, `C` and `V` unchanged. -/
def Obligations.IndexIncrementsAndDecrements : Prop :=
  ∀ s : State,
    let nz := fun r : Nat => { s.p with n := decide (128 ≤ r), z := decide (r = 0) }
    (encode .inx = [0xE8#8] ∧ encode .iny = [0xC8#8] ∧ encode .dex = [0xCA#8] ∧ encode .dey = [0x88#8]) ∧
    (let r := (s.x.toNat + 1) % 256
     exec .inx s = .next { s with x := BitVec.ofNat 8 r, p := nz r, cost := 2 }) ∧
    (let r := (s.y.toNat + 1) % 256
     exec .iny s = .next { s with y := BitVec.ofNat 8 r, p := nz r, cost := 2 }) ∧
    (let r := (s.x.toNat + 255) % 256
     exec .dex s = .next { s with x := BitVec.ofNat 8 r, p := nz r, cost := 2 }) ∧
    (let r := (s.y.toNat + 255) % 256
     exec .dey s = .next { s with y := BitVec.ofNat 8 r, p := nz r, cost := 2 })

/-! ### Control transfer -/

/-- 46_control_flow.md R190, R191, 40_step_and_addressing.md R96: JMP absolute, and JMP indirect, whose high byte comes from
the start of the same page when the pointer's low address byte is 0xFF. -/
def Obligations.JumpInstructions : Prop :=
  ∀ (w : Word) (s : State),
    (encode (.jmpAbs w) = [0x4C#8, lo w, hi w] ∧ encode (.jmpInd w) = [0x6C#8, lo w, hi w]) ∧
    exec (.jmpAbs w) s = .next { s with pc := w, cost := 3 } ∧
    (let l := busRead w s
     let h := busRead (BitVec.ofNat 16 (w.toNat / 256 * 256 + (w.toNat % 256 + 1) % 256)) l.after
     exec (.jmpInd w) s = .next { s with
       pc := BitVec.ofNat 16 (h.value.toNat * 256 + l.value.toNat), deviceLog := h.after.deviceLog, cost := 5 })

/-- 46_control_flow.md R192: JSR pushes the address of its last byte, high byte first, at `0x0100 | S` and the address below
it in page 1, and jumps; every other byte, register and flag is unchanged. -/
def Obligations.JumpToSubroutine : Prop :=
  ∀ (w : Word) (s : State),
    let r := s.pc - 1#16
    let a1 := stackAddr s.sp
    let a0 := stackAddr (s.sp - 1#8)
    encode (.jsr w) = [0x20#8, lo w, hi w] ∧
    ∃ t, exec (.jsr w) s = .next t ∧
      t = { s with
        pc := w, sp := s.sp - 2#8, store := t.store
        deviceLog := logAfterWrite s a0 (lo r) (logAfterWrite s a1 (hi r) s.deviceLog), cost := 6 } ∧
      (∀ a, a ≠ a0.toNat → a ≠ a1.toNat → t.store.read a = s.store.read a) ∧
      (s.store.wf = true →
        (kindAt s a1 = some .ram → t.store.read a1.toNat = hi r) ∧ (kindAt s a0 = some .ram → t.store.read a0.toNat = lo r))

/-- 46_control_flow.md R193: RTS pulls a word, low byte first, and resumes one past it. -/
def Obligations.ReturnFromSubroutine : Prop :=
  ∀ s : State,
    let l := busRead (stackAddr (s.sp + 1#8)) s
    let h := busRead (stackAddr (s.sp + 2#8)) l.after
    encode .rts = [0x60#8] ∧
    exec .rts s = .next { s with
      pc := BitVec.ofNat 16 (h.value.toNat * 256 + l.value.toNat + 1), sp := s.sp + 2#8, deviceLog := h.after.deviceLog
      cost := 6 }

/-- 46_control_flow.md R192, R193: with the stack page in `RAM`, RTS right after JSR resumes after the JSR with `S`, the
other registers and the flags as before, wherever the stack wraps. -/
def Obligations.SubroutineRoundTrip : Prop :=
  ∀ (w : Word) (s : State), s.store.wf = true → (∀ n : Byte, kindAt s (stackAddr n) = some .ram) →
    ∃ t r, exec (.jsr w) s = .next t ∧ (∀ q, exec .rts (t.setPc q) = .next r) ∧
      r.pc = s.pc ∧ r.sp = s.sp ∧ r.p = s.p ∧ r.a = s.a ∧ r.x = s.x ∧ r.y = s.y

/-- 46_control_flow.md R194 to R202: each branch by its flag: taken to `pc` plus the signed offset modulo 65536 at cost 3, or
4 when the target is in another page; not taken at cost 2 with nothing else changed. -/
def Obligations.BranchInstructions : Prop :=
  ∀ (off : Byte) (s : State), ∀ f ∈ branchForms off, f.instr.opcode = f.opcode ∧
    (f.cond s.p = false → exec f.instr s = .next { s with cost := 2 }) ∧
    (f.cond s.p = true →
      ∃ target : Word, (target.toNat : Int) = ((s.pc.toNat : Int) + off.toInt) % 65536 ∧
        exec f.instr s = .next { s with
          pc := target, cost := if target.toNat / 256 = s.pc.toNat / 256 then 3 else 4 })

/-! ### Flag instructions, NOP, illegal opcodes -/

/-- 47_flags_system.md R210 to R216: each flag instruction changes exactly its flag. -/
def Obligations.FlagInstructions : Prop :=
  ∀ s : State,
    (encode .clc = [0x18#8] ∧ encode .sec = [0x38#8] ∧ encode .cli = [0x58#8] ∧ encode .sei = [0x78#8] ∧
      encode .cld = [0xD8#8] ∧ encode .sed = [0xF8#8] ∧ encode .clv = [0xB8#8]) ∧
    exec .clc s = .next { s with p := { s.p with c := false }, cost := 2 } ∧
    exec .sec s = .next { s with p := { s.p with c := true }, cost := 2 } ∧
    exec .cli s = .next { s with p := { s.p with i := false }, cost := 2 } ∧
    exec .sei s = .next { s with p := { s.p with i := true }, cost := 2 } ∧
    exec .cld s = .next { s with p := { s.p with d := false }, cost := 2 } ∧
    exec .sed s = .next { s with p := { s.p with d := true }, cost := 2 } ∧
    exec .clv s = .next { s with p := { s.p with v := false }, cost := 2 }

/-- 47_flags_system.md R217, R220: NOP and every illegal opcode change nothing (`pc` has moved past the one byte). -/
def Obligations.NopAndIllegalOpcodes : Prop :=
  ∀ s : State,
    encode .nop = [0xEA#8] ∧ exec .nop s = .next { s with cost := 2 } ∧
    ∀ op ∈ illegalOpcodes, decode [op] = .ok (.ill op, []) ∧ exec (.ill op) s = .next { s with cost := 2 }

/-! ### BRK, RTI, interrupts -/

/-- 47_flags_system.md R218: BRK, whatever `I` is: the address of BRK plus 2 (here `pc` + 1) and the status byte with bit 4
set are pushed, `I` is set and no other flag changes, and `pc` is the word at 0xFFFE. -/
def Obligations.BreakInstruction : Prop :=
  ∀ s : State, encode .brk = [0x00#8] ∧ exec .brk s = .next (trapState s (s.pc + 1#16) true 0xFFFE#16)

/-- 47_flags_system.md R218, 60_exceptions.md R238: what a trap leaves in memory: the three pushed bytes at `S` and below it
in page 1 where that is `RAM`, and every other byte as before. -/
def Obligations.TrapFrameInMemory : Prop :=
  ∀ (s : State) (ret vector : Word) (b : Bool),
    let t := takeTrap ret b vector s
    let a2 := stackAddr s.sp
    let a1 := stackAddr (s.sp - 1#8)
    let a0 := stackAddr (s.sp - 2#8)
    t = trapState s ret b vector ∧
    (∀ a, a ≠ a0.toNat → a ≠ a1.toNat → a ≠ a2.toNat → t.store.read a = s.store.read a) ∧
    (s.store.wf = true →
      (kindAt s a2 = some .ram → t.store.read a2.toNat = hi ret) ∧
      (kindAt s a1 = some .ram → t.store.read a1.toNat = lo ret) ∧
      (kindAt s a0 = some .ram → t.store.read a0.toNat = s.p.pack b))

/-- 47_flags_system.md R219: RTI pulls the flags, then `pc`, low byte first, with no addition. -/
def Obligations.ReturnFromInterrupt : Prop :=
  ∀ s : State,
    let f := busRead (stackAddr (s.sp + 1#8)) s
    let l := busRead (stackAddr (s.sp + 2#8)) f.after
    let h := busRead (stackAddr (s.sp + 3#8)) l.after
    encode .rti = [0x40#8] ∧
    exec .rti s = .next { s with
      p := { n := f.value.getLsbD 7, v := f.value.getLsbD 6, d := f.value.getLsbD 3, i := f.value.getLsbD 2
             z := f.value.getLsbD 1, c := f.value.getLsbD 0 }
      pc := BitVec.ofNat 16 (h.value.toNat * 256 + l.value.toNat), sp := s.sp + 3#8, deviceLog := h.after.deviceLog
      cost := 6 }

/-- 60_exceptions.md R241, 47_flags_system.md R219: with the stack page in `RAM`, RTI right after a trap restores the flags,
`I` included, `S` and the pushed address; the registers are untouched. -/
def Obligations.TrapRoundTrip : Prop :=
  ∀ (s : State) (ret vector : Word) (b : Bool), s.store.wf = true → (∀ n : Byte, kindAt s (stackAddr n) = some .ram) →
    ∃ r, (∀ q, exec .rti ((takeTrap ret b vector s).setPc q) = .next r) ∧
      r.p = s.p ∧ r.pc = ret ∧ r.sp = s.sp ∧ r.a = s.a ∧ r.x = s.x ∧ r.y = s.y

/-- 60_exceptions.md R233, R236 to R238, R240: an interrupt is sampled at the start of a step: NMI before IRQ, IRQ only
while `I` is 0; the entry is the whole step, pushes `pc` unchanged and the status byte with bit 4 clear, and NMI clears its
latch; without the lines none is ever taken, whatever the line and the latch hold. -/
def Obligations.InterruptEntry : Prop :=
  ∀ s : State,
    (s.hasIntLines = true → s.nmiPending = true →
      step s = .next { trapState s s.pc false 0xFFFA#16 with nmiPending := false }) ∧
    (s.hasIntLines = true → s.nmiPending = false → s.irqLine = true → s.p.i = false →
      step s = .next (trapState s s.pc false 0xFFFE#16)) ∧
    (s.hasIntLines = true → s.nmiPending = false → (s.irqLine = false ∨ s.p.i = true) →
      step s = exec (fetchInstr s).instr (fetchInstr s).after) ∧
    (s.hasIntLines = false → step s = exec (fetchInstr s).instr (fetchInstr s).after)
end

