-- ==== Sys2Proof/Laws/Bits.lean ====
section
/-! SUPPORT. The notation of spec 00_scope.md section 4 as numbers. -/

namespace Sys2Proof

theorem word_toNat (h l : Byte) : (word h l).toNat = h.toNat * 256 + l.toNat := by
  have := l.isLt
  rw [word, BitVec.toNat_append, Nat.shiftLeft_eq, Nat.mul_comm, ← Nat.two_pow_add_eq_or_of_lt this]

theorem hi_toNat (w : Word) : (hi w).toNat = w.toNat / 256 := by
  have := w.isLt
  rw [hi, BitVec.extractLsb'_toNat, Nat.shiftRight_eq_div_pow]
  omega

theorem lo_toNat (w : Word) : (lo w).toNat = w.toNat % 256 := by
  rw [lo, BitVec.extractLsb'_toNat]; simp

@[simp] theorem hi_word (h l : Byte) : hi (word h l) = h := by
  apply BitVec.eq_of_toNat_eq; rw [hi_toNat, word_toNat]; omega

@[simp] theorem lo_word (h l : Byte) : lo (word h l) = l := by
  apply BitVec.eq_of_toNat_eq; rw [lo_toNat, word_toNat]; omega

@[simp] theorem word_hi_lo (w : Word) : word (hi w) (lo w) = w := by
  apply BitVec.eq_of_toNat_eq; rw [word_toNat, hi_toNat, lo_toNat]; omega

theorem zeroPage_toNat (b : Byte) : (zeroPage b).toNat = b.toNat := by simp [zeroPage, word_toNat]

/-- The stack never leaves page 1 (42_stack.md R136). -/
theorem stackAddr_toNat (sp : Byte) : (stackAddr sp).toNat = 256 + sp.toNat := by
  have := sp.isLt
  have h : (256 ||| sp.toNat : Nat) = 256 + sp.toNat := by
    have := Nat.two_pow_add_eq_or_of_lt (i := 8) (b := sp.toNat) this 1
    simpa using this.symm
  simp only [stackAddr, BitVec.toNat_or, BitVec.toNat_setWidth, BitVec.toNat_ofNat]
  rw [Nat.mod_eq_of_lt (by omega : sp.toNat < 2 ^ 16)]
  exact h

theorem stackAddr_inj (a b : Byte) (h : stackAddr a = stackAddr b) : a = b := by
  have := congrArg BitVec.toNat h
  rw [stackAddr_toNat, stackAddr_toNat] at this
  exact BitVec.eq_of_toNat_eq (by omega)

end Sys2Proof
end

