-- ==== Sys2Proof/Laws/Memory.lean ====
section
/-! SUPPORT. The backing store: read after write, what a write leaves alone, the canonical form is kept by every operation,
and two stores in canonical form that read alike are equal. -/

namespace Sys2Proof.Machine

@[simp] theorem Memory.read_nil (a : Nat) : Memory.read [] a = 0#8 := rfl

theorem Memory.read_cons (k : Nat) (w : Byte) (m : Memory) (a : Nat) :
    Memory.read ((k, w) :: m) a = if a = k then w else Memory.read m a := rfl

/-- A write leaves every other address alone, canonical or not. -/
theorem Memory.read_write_ne (m : Memory) (a b : Nat) (v : Byte) (h : b ≠ a) :
    (m.write a v).read b = m.read b := by
  induction m with
  | nil => by_cases hv : v = 0#8 <;> simp [Memory.write, Memory.read, hv, h]
  | cons e m ih =>
    obtain ⟨k, w⟩ := e
    simp only [Memory.write]
    split
    · split <;> simp [Memory.read_cons, h]
    · split
      · rename_i hk
        subst hk
        split <;> simp [Memory.read_cons, h]
      · simp [Memory.read_cons, ih]

/-- Below the least listed address everything reads as the zero fill. -/
theorem Memory.read_of_wfFrom (m : Memory) (low a : Nat) (hm : m.wfFrom low = true) (ha : a < low) :
    m.read a = 0#8 := by
  induction m generalizing low with
  | nil => rfl
  | cons e m ih =>
    obtain ⟨k, w⟩ := e
    simp only [Memory.wfFrom, Bool.and_eq_true, decide_eq_true_eq] at hm
    have hne : a ≠ k := by omega
    simp only [Memory.read_cons, hne, if_false]
    exact ih (k + 1) hm.2 (by omega)

/-- A lower bound may be lowered. -/
theorem Memory.wfFrom_mono (m : Memory) (low low' : Nat) (h : low' ≤ low) (hm : m.wfFrom low = true) :
    m.wfFrom low' = true := by
  cases m with
  | nil => rfl
  | cons e m =>
    obtain ⟨k, w⟩ := e
    simp only [Memory.wfFrom, Bool.and_eq_true, decide_eq_true_eq] at hm ⊢
    exact ⟨⟨⟨by omega, hm.1.1.2⟩, hm.1.2⟩, hm.2⟩

/-- Read after write at the same address. -/
theorem Memory.read_write_same_from (m : Memory) (low a : Nat) (v : Byte) (hm : m.wfFrom low = true) :
    (m.write a v).read a = v := by
  induction m generalizing low with
  | nil => by_cases hv : v = 0#8 <;> simp [Memory.write, Memory.read, hv]
  | cons e m ih =>
    obtain ⟨k, w⟩ := e
    simp only [Memory.wfFrom, Bool.and_eq_true, decide_eq_true_eq] at hm
    simp only [Memory.write]
    split
    · rename_i hak
      split
      · rename_i hv
        subst hv
        have hne : a ≠ k := by omega
        simp only [Memory.read_cons, hne, if_false]
        exact Memory.read_of_wfFrom m (k + 1) a hm.2 (by omega)
      · simp [Memory.read_cons]
    · split
      · rename_i hk
        subst hk
        split
        · rename_i hv
          subst hv
          exact Memory.read_of_wfFrom m (a + 1) a hm.2 (by omega)
        · simp [Memory.read_cons]
      · rename_i hne
        simp only [Memory.read_cons, hne, if_false]
        exact ih (k + 1) hm.2

/-- Read after write at the same address, for a store in canonical form. -/
theorem Memory.read_write_same (m : Memory) (a : Nat) (v : Byte) (hm : m.wf = true) : (m.write a v).read a = v :=
  Memory.read_write_same_from m 0 a v hm

/-- Read after write at any address. -/
theorem Memory.read_write (m : Memory) (a b : Nat) (v : Byte) (hm : m.wf = true) :
    (m.write a v).read b = if b = a then v else m.read b := by
  by_cases h : b = a
  · subst h; simp [Memory.read_write_same m b v hm]
  · simp [h, Memory.read_write_ne m a b v h]

theorem Memory.write_wfFrom (m : Memory) (low a : Nat) (v : Byte) (ha : a < Config.spaceSize) (hl : low ≤ a)
    (hm : m.wfFrom low = true) : (m.write a v).wfFrom low = true := by
  induction m generalizing low with
  | nil => by_cases hv : v = 0#8 <;> simp [Memory.write, Memory.wfFrom, hv, hl, ha]
  | cons e m ih =>
    obtain ⟨k, w⟩ := e
    simp only [Memory.wfFrom, Bool.and_eq_true, decide_eq_true_eq, bne_iff_ne, ne_eq] at hm
    simp only [Memory.write]
    split
    · split
      · simp [Memory.wfFrom, hm]
      · rename_i hak hv
        have hak' : a + 1 ≤ k := hak
        simp [Memory.wfFrom, hm, hl, ha, hv, hak']
    · split
      · rename_i hk
        subst hk
        split
        · exact Memory.wfFrom_mono m (a + 1) low (by omega) hm.2
        · rename_i hv
          simp [Memory.wfFrom, hl, ha, hv, hm.2]
      · have := ih (k + 1) (by omega) hm.2
        simp [Memory.wfFrom, hm, this]

/-- A write keeps the canonical form. -/
theorem Memory.write_wf (m : Memory) (a : Nat) (v : Byte) (ha : a < Config.spaceSize) (hm : m.wf = true) :
    (m.write a v).wf = true :=
  Memory.write_wfFrom m 0 a v ha (Nat.zero_le a) hm

/-- A write of consecutive bytes keeps the canonical form. -/
theorem Memory.writeList_wf (m : Memory) (start : Nat) (vs : List Byte)
    (hs : start + vs.length ≤ Config.spaceSize) (hm : m.wf = true) : (m.writeList start vs).wf = true := by
  induction vs generalizing m start with
  | nil => exact hm
  | cons v vs ih =>
    simp only [List.length_cons] at hs
    exact ih _ _ (by omega) (Memory.write_wf m start v (by omega) hm)

/-- A write of consecutive bytes leaves every address outside them alone. -/
theorem Memory.read_writeList_of_lt_or_le (m : Memory) (start b : Nat) (vs : List Byte)
    (h : b < start ∨ start + vs.length ≤ b) : (m.writeList start vs).read b = m.read b := by
  induction vs generalizing m start with
  | nil => rfl
  | cons v vs ih =>
    simp only [List.length_cons] at h
    have hne : b ≠ start := by omega
    simp only [Memory.writeList]
    rw [ih _ _ (by omega), Memory.read_write_ne m start b v hne]

/-- A write of consecutive bytes puts each of them at its address. -/
theorem Memory.read_writeList (m : Memory) (start i : Nat) (vs : List Byte) (hi : i < vs.length)
    (hs : start + vs.length ≤ Config.spaceSize) (hm : m.wf = true) :
    (m.writeList start vs).read (start + i) = vs[i] := by
  induction vs generalizing m start i with
  | nil => simp at hi
  | cons v vs ih =>
    simp only [List.length_cons] at hs hi
    have hw := Memory.write_wf m start v (by omega) hm
    cases i with
    | zero =>
      simp only [Memory.writeList, Nat.add_zero, List.getElem_cons_zero]
      rw [Memory.read_writeList_of_lt_or_le _ _ _ _ (Or.inl (by omega)), Memory.read_write_same m start v hm]
    | succ j =>
      simp only [Memory.writeList, List.getElem_cons_succ]
      have := ih (m.write start v) (start + 1) j (by omega) (by omega) hw
      rw [← this]
      congr 1
      omega

/-- The bytes read from a range are the bytes of its addresses. -/
theorem Memory.readList_length (m : Memory) (start length : Nat) : (m.readList start length).length = length := by
  induction length generalizing start with
  | zero => rfl
  | succ n ih => simp [Memory.readList, ih]

theorem Memory.readList_getElem (m : Memory) (start length i : Nat) (h : i < (m.readList start length).length) :
    (m.readList start length)[i] = m.read (start + i) := by
  induction length generalizing start i with
  | zero => simp [Memory.readList] at h
  | succ n ih =>
    cases i with
    | zero => simp [Memory.readList]
    | succ j =>
      simp only [Memory.readList, List.getElem_cons_succ]
      rw [ih]
      congr 1
      omega

/-- Equal memories are equal data: two stores in canonical form that read alike everywhere are one list. -/
theorem Memory.eq_of_read_eq_from (m n : Memory) (low : Nat) (hm : m.wfFrom low = true) (hn : n.wfFrom low = true)
    (h : ∀ a, m.read a = n.read a) : m = n := by
  induction m generalizing n low with
  | nil =>
    cases n with
    | nil => rfl
    | cons e n =>
      obtain ⟨k, w⟩ := e
      have hk := h k
      simp only [Memory.wfFrom, Bool.and_eq_true, bne_iff_ne, ne_eq] at hn
      simp [Memory.read_cons] at hk
      exact absurd hk.symm hn.1.2
  | cons e m ih =>
    obtain ⟨k, w⟩ := e
    have hm' := hm
    simp only [Memory.wfFrom, Bool.and_eq_true, decide_eq_true_eq, bne_iff_ne, ne_eq] at hm
    cases n with
    | nil =>
      have hk := h k
      simp [Memory.read_cons] at hk
      exact absurd hk hm.1.2
    | cons e' n =>
      obtain ⟨k', w'⟩ := e'
      have hn' := hn
      simp only [Memory.wfFrom, Bool.and_eq_true, decide_eq_true_eq, bne_iff_ne, ne_eq] at hn
      have hkk : k = k' := by
        rcases Nat.lt_trichotomy k k' with hlt | heq | hgt
        · have h1 := h k
          have hne : k ≠ k' := by omega
          simp only [Memory.read_cons, if_true, hne, if_false] at h1
          rw [Memory.read_of_wfFrom n (k' + 1) k hn.2 (by omega)] at h1
          exact absurd h1 hm.1.2
        · exact heq
        · have h1 := h k'
          have hne : k' ≠ k := by omega
          simp only [Memory.read_cons, if_true, hne, if_false] at h1
          rw [Memory.read_of_wfFrom m (k + 1) k' hm.2 (by omega)] at h1
          exact absurd h1.symm hn.1.2
      subst hkk
      have hw : w = w' := by simpa [Memory.read_cons] using h k
      subst hw
      have htail : m = n := by
        refine ih n (k + 1) hm.2 hn.2 (fun a => ?_)
        by_cases ha : a = k
        · subst ha
          rw [Memory.read_of_wfFrom m (a + 1) a hm.2 (by omega), Memory.read_of_wfFrom n (a + 1) a hn.2 (by omega)]
        · have := h a
          simpa [Memory.read_cons, ha] using this
      rw [htail]

theorem Memory.eq_of_read_eq (m n : Memory) (hm : m.wf = true) (hn : n.wf = true) (h : ∀ a, m.read a = n.read a) :
    m = n :=
  Memory.eq_of_read_eq_from m n 0 hm hn h

end Sys2Proof.Machine
end

