-- ==== Sys2Proof/Laws/State.lean ====
section
/-! SUPPORT. One lemma per field per register update (all by rfl, all simp), so that no proof unfolds a record update. -/

namespace Sys2Proof.Machine

section setA

variable (s : State) (v : Byte)

@[simp] theorem setA_a : (s.setA v).a = v := rfl
@[simp] theorem setA_x : (s.setA v).x = s.x := rfl
@[simp] theorem setA_y : (s.setA v).y = s.y := rfl
@[simp] theorem setA_sp : (s.setA v).sp = s.sp := rfl
@[simp] theorem setA_pc : (s.setA v).pc = s.pc := rfl
@[simp] theorem setA_p : (s.setA v).p = s.p := rfl
@[simp] theorem setA_store : (s.setA v).store = s.store := rfl
@[simp] theorem setA_regions : (s.setA v).regions = s.regions := rfl
@[simp] theorem setA_deviceLog : (s.setA v).deviceLog = s.deviceLog := rfl
@[simp] theorem setA_hasIntLines : (s.setA v).hasIntLines = s.hasIntLines := rfl
@[simp] theorem setA_irqLine : (s.setA v).irqLine = s.irqLine := rfl
@[simp] theorem setA_nmiPending : (s.setA v).nmiPending = s.nmiPending := rfl
@[simp] theorem setA_cost : (s.setA v).cost = s.cost := rfl

end setA

section setX

variable (s : State) (v : Byte)

@[simp] theorem setX_a : (s.setX v).a = s.a := rfl
@[simp] theorem setX_x : (s.setX v).x = v := rfl
@[simp] theorem setX_y : (s.setX v).y = s.y := rfl
@[simp] theorem setX_sp : (s.setX v).sp = s.sp := rfl
@[simp] theorem setX_pc : (s.setX v).pc = s.pc := rfl
@[simp] theorem setX_p : (s.setX v).p = s.p := rfl
@[simp] theorem setX_store : (s.setX v).store = s.store := rfl
@[simp] theorem setX_regions : (s.setX v).regions = s.regions := rfl
@[simp] theorem setX_deviceLog : (s.setX v).deviceLog = s.deviceLog := rfl
@[simp] theorem setX_hasIntLines : (s.setX v).hasIntLines = s.hasIntLines := rfl
@[simp] theorem setX_irqLine : (s.setX v).irqLine = s.irqLine := rfl
@[simp] theorem setX_nmiPending : (s.setX v).nmiPending = s.nmiPending := rfl
@[simp] theorem setX_cost : (s.setX v).cost = s.cost := rfl

end setX

section setY

variable (s : State) (v : Byte)

@[simp] theorem setY_a : (s.setY v).a = s.a := rfl
@[simp] theorem setY_x : (s.setY v).x = s.x := rfl
@[simp] theorem setY_y : (s.setY v).y = v := rfl
@[simp] theorem setY_sp : (s.setY v).sp = s.sp := rfl
@[simp] theorem setY_pc : (s.setY v).pc = s.pc := rfl
@[simp] theorem setY_p : (s.setY v).p = s.p := rfl
@[simp] theorem setY_store : (s.setY v).store = s.store := rfl
@[simp] theorem setY_regions : (s.setY v).regions = s.regions := rfl
@[simp] theorem setY_deviceLog : (s.setY v).deviceLog = s.deviceLog := rfl
@[simp] theorem setY_hasIntLines : (s.setY v).hasIntLines = s.hasIntLines := rfl
@[simp] theorem setY_irqLine : (s.setY v).irqLine = s.irqLine := rfl
@[simp] theorem setY_nmiPending : (s.setY v).nmiPending = s.nmiPending := rfl
@[simp] theorem setY_cost : (s.setY v).cost = s.cost := rfl

end setY

section setSp

variable (s : State) (v : Byte)

@[simp] theorem setSp_a : (s.setSp v).a = s.a := rfl
@[simp] theorem setSp_x : (s.setSp v).x = s.x := rfl
@[simp] theorem setSp_y : (s.setSp v).y = s.y := rfl
@[simp] theorem setSp_sp : (s.setSp v).sp = v := rfl
@[simp] theorem setSp_pc : (s.setSp v).pc = s.pc := rfl
@[simp] theorem setSp_p : (s.setSp v).p = s.p := rfl
@[simp] theorem setSp_store : (s.setSp v).store = s.store := rfl
@[simp] theorem setSp_regions : (s.setSp v).regions = s.regions := rfl
@[simp] theorem setSp_deviceLog : (s.setSp v).deviceLog = s.deviceLog := rfl
@[simp] theorem setSp_hasIntLines : (s.setSp v).hasIntLines = s.hasIntLines := rfl
@[simp] theorem setSp_irqLine : (s.setSp v).irqLine = s.irqLine := rfl
@[simp] theorem setSp_nmiPending : (s.setSp v).nmiPending = s.nmiPending := rfl
@[simp] theorem setSp_cost : (s.setSp v).cost = s.cost := rfl

end setSp

section setPc

variable (s : State) (v : Word)

@[simp] theorem setPc_a : (s.setPc v).a = s.a := rfl
@[simp] theorem setPc_x : (s.setPc v).x = s.x := rfl
@[simp] theorem setPc_y : (s.setPc v).y = s.y := rfl
@[simp] theorem setPc_sp : (s.setPc v).sp = s.sp := rfl
@[simp] theorem setPc_pc : (s.setPc v).pc = v := rfl
@[simp] theorem setPc_p : (s.setPc v).p = s.p := rfl
@[simp] theorem setPc_store : (s.setPc v).store = s.store := rfl
@[simp] theorem setPc_regions : (s.setPc v).regions = s.regions := rfl
@[simp] theorem setPc_deviceLog : (s.setPc v).deviceLog = s.deviceLog := rfl
@[simp] theorem setPc_hasIntLines : (s.setPc v).hasIntLines = s.hasIntLines := rfl
@[simp] theorem setPc_irqLine : (s.setPc v).irqLine = s.irqLine := rfl
@[simp] theorem setPc_nmiPending : (s.setPc v).nmiPending = s.nmiPending := rfl
@[simp] theorem setPc_cost : (s.setPc v).cost = s.cost := rfl

end setPc

section setP

variable (s : State) (v : Flags)

@[simp] theorem setP_a : (s.setP v).a = s.a := rfl
@[simp] theorem setP_x : (s.setP v).x = s.x := rfl
@[simp] theorem setP_y : (s.setP v).y = s.y := rfl
@[simp] theorem setP_sp : (s.setP v).sp = s.sp := rfl
@[simp] theorem setP_pc : (s.setP v).pc = s.pc := rfl
@[simp] theorem setP_p : (s.setP v).p = v := rfl
@[simp] theorem setP_store : (s.setP v).store = s.store := rfl
@[simp] theorem setP_regions : (s.setP v).regions = s.regions := rfl
@[simp] theorem setP_deviceLog : (s.setP v).deviceLog = s.deviceLog := rfl
@[simp] theorem setP_hasIntLines : (s.setP v).hasIntLines = s.hasIntLines := rfl
@[simp] theorem setP_irqLine : (s.setP v).irqLine = s.irqLine := rfl
@[simp] theorem setP_nmiPending : (s.setP v).nmiPending = s.nmiPending := rfl
@[simp] theorem setP_cost : (s.setP v).cost = s.cost := rfl

end setP

section setStore

variable (s : State) (v : Memory)

@[simp] theorem setStore_a : (s.setStore v).a = s.a := rfl
@[simp] theorem setStore_x : (s.setStore v).x = s.x := rfl
@[simp] theorem setStore_y : (s.setStore v).y = s.y := rfl
@[simp] theorem setStore_sp : (s.setStore v).sp = s.sp := rfl
@[simp] theorem setStore_pc : (s.setStore v).pc = s.pc := rfl
@[simp] theorem setStore_p : (s.setStore v).p = s.p := rfl
@[simp] theorem setStore_store : (s.setStore v).store = v := rfl
@[simp] theorem setStore_regions : (s.setStore v).regions = s.regions := rfl
@[simp] theorem setStore_deviceLog : (s.setStore v).deviceLog = s.deviceLog := rfl
@[simp] theorem setStore_hasIntLines : (s.setStore v).hasIntLines = s.hasIntLines := rfl
@[simp] theorem setStore_irqLine : (s.setStore v).irqLine = s.irqLine := rfl
@[simp] theorem setStore_nmiPending : (s.setStore v).nmiPending = s.nmiPending := rfl
@[simp] theorem setStore_cost : (s.setStore v).cost = s.cost := rfl

end setStore

section setDeviceLog

variable (s : State) (v : List DeviceEvent)

@[simp] theorem setDeviceLog_a : (s.setDeviceLog v).a = s.a := rfl
@[simp] theorem setDeviceLog_x : (s.setDeviceLog v).x = s.x := rfl
@[simp] theorem setDeviceLog_y : (s.setDeviceLog v).y = s.y := rfl
@[simp] theorem setDeviceLog_sp : (s.setDeviceLog v).sp = s.sp := rfl
@[simp] theorem setDeviceLog_pc : (s.setDeviceLog v).pc = s.pc := rfl
@[simp] theorem setDeviceLog_p : (s.setDeviceLog v).p = s.p := rfl
@[simp] theorem setDeviceLog_store : (s.setDeviceLog v).store = s.store := rfl
@[simp] theorem setDeviceLog_regions : (s.setDeviceLog v).regions = s.regions := rfl
@[simp] theorem setDeviceLog_deviceLog : (s.setDeviceLog v).deviceLog = v := rfl
@[simp] theorem setDeviceLog_hasIntLines : (s.setDeviceLog v).hasIntLines = s.hasIntLines := rfl
@[simp] theorem setDeviceLog_irqLine : (s.setDeviceLog v).irqLine = s.irqLine := rfl
@[simp] theorem setDeviceLog_nmiPending : (s.setDeviceLog v).nmiPending = s.nmiPending := rfl
@[simp] theorem setDeviceLog_cost : (s.setDeviceLog v).cost = s.cost := rfl

end setDeviceLog

section setNmiPending

variable (s : State) (v : Bool)

@[simp] theorem setNmiPending_a : (s.setNmiPending v).a = s.a := rfl
@[simp] theorem setNmiPending_x : (s.setNmiPending v).x = s.x := rfl
@[simp] theorem setNmiPending_y : (s.setNmiPending v).y = s.y := rfl
@[simp] theorem setNmiPending_sp : (s.setNmiPending v).sp = s.sp := rfl
@[simp] theorem setNmiPending_pc : (s.setNmiPending v).pc = s.pc := rfl
@[simp] theorem setNmiPending_p : (s.setNmiPending v).p = s.p := rfl
@[simp] theorem setNmiPending_store : (s.setNmiPending v).store = s.store := rfl
@[simp] theorem setNmiPending_regions : (s.setNmiPending v).regions = s.regions := rfl
@[simp] theorem setNmiPending_deviceLog : (s.setNmiPending v).deviceLog = s.deviceLog := rfl
@[simp] theorem setNmiPending_hasIntLines : (s.setNmiPending v).hasIntLines = s.hasIntLines := rfl
@[simp] theorem setNmiPending_irqLine : (s.setNmiPending v).irqLine = s.irqLine := rfl
@[simp] theorem setNmiPending_nmiPending : (s.setNmiPending v).nmiPending = v := rfl
@[simp] theorem setNmiPending_cost : (s.setNmiPending v).cost = s.cost := rfl

end setNmiPending

section setCost

variable (s : State) (v : Nat)

@[simp] theorem setCost_a : (s.setCost v).a = s.a := rfl
@[simp] theorem setCost_x : (s.setCost v).x = s.x := rfl
@[simp] theorem setCost_y : (s.setCost v).y = s.y := rfl
@[simp] theorem setCost_sp : (s.setCost v).sp = s.sp := rfl
@[simp] theorem setCost_pc : (s.setCost v).pc = s.pc := rfl
@[simp] theorem setCost_p : (s.setCost v).p = s.p := rfl
@[simp] theorem setCost_store : (s.setCost v).store = s.store := rfl
@[simp] theorem setCost_regions : (s.setCost v).regions = s.regions := rfl
@[simp] theorem setCost_deviceLog : (s.setCost v).deviceLog = s.deviceLog := rfl
@[simp] theorem setCost_hasIntLines : (s.setCost v).hasIntLines = s.hasIntLines := rfl
@[simp] theorem setCost_irqLine : (s.setCost v).irqLine = s.irqLine := rfl
@[simp] theorem setCost_nmiPending : (s.setCost v).nmiPending = s.nmiPending := rfl
@[simp] theorem setCost_cost : (s.setCost v).cost = v := rfl

end setCost

end Sys2Proof.Machine
end

