-- ==== Sys2Proof/Laws/Bus.lean ====
section
/-! SUPPORT. What a bus access, a fetch, a push, a pull and a trap can change: one lemma per field that stays (simp), and one
that says what the others become. -/

namespace Sys2Proof.Machine

/-! ### Region lookup depends on the region table only -/

theorem kindAt_congr (s t : State) (a : Word) (h : s.regions = t.regions) : kindAt s a = kindAt t a := by
  simp [kindAt, h]

@[simp] theorem kindAt_setA (s : State) (v : Byte) (a : Word) : kindAt (s.setA v) a = kindAt s a := rfl
@[simp] theorem kindAt_setX (s : State) (v : Byte) (a : Word) : kindAt (s.setX v) a = kindAt s a := rfl
@[simp] theorem kindAt_setY (s : State) (v : Byte) (a : Word) : kindAt (s.setY v) a = kindAt s a := rfl
@[simp] theorem kindAt_setSp (s : State) (v : Byte) (a : Word) : kindAt (s.setSp v) a = kindAt s a := rfl
@[simp] theorem kindAt_setPc (s : State) (v : Word) (a : Word) : kindAt (s.setPc v) a = kindAt s a := rfl
@[simp] theorem kindAt_setP (s : State) (v : Flags) (a : Word) : kindAt (s.setP v) a = kindAt s a := rfl
@[simp] theorem kindAt_setStore (s : State) (v : Memory) (a : Word) : kindAt (s.setStore v) a = kindAt s a := rfl
@[simp] theorem kindAt_setDeviceLog (s : State) (v : List DeviceEvent) (a : Word) :
    kindAt (s.setDeviceLog v) a = kindAt s a := rfl
@[simp] theorem kindAt_setCost (s : State) (v : Nat) (a : Word) : kindAt (s.setCost v) a = kindAt s a := rfl
@[simp] theorem kindAt_setNmiPending (s : State) (v : Bool) (a : Word) :
    kindAt (s.setNmiPending v) a = kindAt s a := rfl

/-! ### One bus read -/

/-- A bus read changes the device history only. -/
theorem busRead_after (a : Word) (s : State) :
    (busRead a s).after = s.setDeviceLog (busRead a s).after.deviceLog := by
  unfold busRead; split <;> rfl

section busRead_after

variable (a : Word) (s : State)

@[simp] theorem busRead_after_a : ((busRead a s).after).a = s.a := by rw [busRead_after]; rfl
@[simp] theorem busRead_after_x : ((busRead a s).after).x = s.x := by rw [busRead_after]; rfl
@[simp] theorem busRead_after_y : ((busRead a s).after).y = s.y := by rw [busRead_after]; rfl
@[simp] theorem busRead_after_sp : ((busRead a s).after).sp = s.sp := by rw [busRead_after]; rfl
@[simp] theorem busRead_after_pc : ((busRead a s).after).pc = s.pc := by rw [busRead_after]; rfl
@[simp] theorem busRead_after_p : ((busRead a s).after).p = s.p := by rw [busRead_after]; rfl
@[simp] theorem busRead_after_store : ((busRead a s).after).store = s.store := by rw [busRead_after]; rfl
@[simp] theorem busRead_after_regions : ((busRead a s).after).regions = s.regions := by rw [busRead_after]; rfl
@[simp] theorem busRead_after_hasIntLines : ((busRead a s).after).hasIntLines = s.hasIntLines := by rw [busRead_after]; rfl
@[simp] theorem busRead_after_irqLine : ((busRead a s).after).irqLine = s.irqLine := by rw [busRead_after]; rfl
@[simp] theorem busRead_after_nmiPending : ((busRead a s).after).nmiPending = s.nmiPending := by rw [busRead_after]; rfl
@[simp] theorem busRead_after_cost : ((busRead a s).after).cost = s.cost := by rw [busRead_after]; rfl

end busRead_after

@[simp] theorem kindAt_busRead (a b : Word) (s : State) : kindAt (busRead a s).after b = kindAt s b :=
  kindAt_congr _ _ _ (by simp)

/-- A read of storage returns the stored byte and changes nothing (20_memory.md R36). -/
theorem busRead_storage (a : Word) (s : State) (h : kindAt s a = some .ram ∨ kindAt s a = some .rom) :
    busRead a s = { value := s.store.read a.toNat, after := s } := by
  unfold busRead; rcases h with h | h <;> simp [h]

/-- A read of an unmapped address returns the idle value (20_memory.md R38). -/
theorem busRead_unmapped (a : Word) (s : State) (h : kindAt s a = none) :
    busRead a s = { value := idleValue, after := s } := by
  unfold busRead; simp [h]

/-- A read of a device address is one call of its callback (20_memory.md R36, R41). -/
theorem busRead_device (a : Word) (id : Nat) (s : State) (h : kindAt s a = some (.device id)) :
    busRead a s =
      { value := Config.deviceAnswer id s.deviceLog a, after := s.setDeviceLog (.call id a none :: s.deviceLog) } := by
  unfold busRead; simp [h, callDevice]

/-! ### One bus write -/

section busWrite

variable (a : Word) (v : Byte) (s : State)

@[simp] theorem busWrite_a : (busWrite a v s).a = s.a := by unfold busWrite; split <;> rfl
@[simp] theorem busWrite_x : (busWrite a v s).x = s.x := by unfold busWrite; split <;> rfl
@[simp] theorem busWrite_y : (busWrite a v s).y = s.y := by unfold busWrite; split <;> rfl
@[simp] theorem busWrite_sp : (busWrite a v s).sp = s.sp := by unfold busWrite; split <;> rfl
@[simp] theorem busWrite_pc : (busWrite a v s).pc = s.pc := by unfold busWrite; split <;> rfl
@[simp] theorem busWrite_p : (busWrite a v s).p = s.p := by unfold busWrite; split <;> rfl
@[simp] theorem busWrite_regions : (busWrite a v s).regions = s.regions := by unfold busWrite; split <;> rfl
@[simp] theorem busWrite_hasIntLines : (busWrite a v s).hasIntLines = s.hasIntLines := by unfold busWrite; split <;> rfl
@[simp] theorem busWrite_irqLine : (busWrite a v s).irqLine = s.irqLine := by unfold busWrite; split <;> rfl
@[simp] theorem busWrite_nmiPending : (busWrite a v s).nmiPending = s.nmiPending := by unfold busWrite; split <;> rfl
@[simp] theorem busWrite_cost : (busWrite a v s).cost = s.cost := by unfold busWrite; split <;> rfl

end busWrite

@[simp] theorem kindAt_busWrite (a b : Word) (v : Byte) (s : State) : kindAt (busWrite a v s) b = kindAt s b :=
  kindAt_congr _ _ _ (by simp)

/-- A write reaches the store in `RAM` only (20_memory.md R37). -/
theorem busWrite_store (a : Word) (v : Byte) (s : State) :
    (busWrite a v s).store = if kindAt s a = some .ram then s.store.write a.toNat v else s.store := by
  unfold busWrite; split <;> simp_all [callDevice]

/-- A write to a device address is one call of its callback, and no other write is (20_memory.md R37, R41). -/
theorem busWrite_deviceLog (a : Word) (v : Byte) (s : State) :
    (busWrite a v s).deviceLog =
      match kindAt s a with
      | some (.device id) => .call id a (some v) :: s.deviceLog
      | _ => s.deviceLog := by
  unfold busWrite; split <;> simp_all [callDevice]

/-- Everything a bus write can do. -/
theorem busWrite_eq (a : Word) (v : Byte) (s : State) :
    busWrite a v s = (s.setStore (busWrite a v s).store).setDeviceLog (busWrite a v s).deviceLog := by
  unfold busWrite; split <;> rfl

/-- A write leaves every other address of the store alone. -/
theorem busWrite_read_ne (a : Word) (v : Byte) (s : State) (b : Nat) (h : b ≠ a.toNat) :
    (busWrite a v s).store.read b = s.store.read b := by
  rw [busWrite_store]; split
  · exact Memory.read_write_ne _ _ _ _ h
  · rfl

/-- What every address of the store holds after a write. -/
theorem busWrite_read (a : Word) (v : Byte) (s : State) (b : Nat) (hm : s.store.wf = true) :
    (busWrite a v s).store.read b = if b = a.toNat ∧ kindAt s a = some .ram then v else s.store.read b := by
  rw [busWrite_store]
  by_cases hk : kindAt s a = some .ram
  · simp [hk, Memory.read_write _ _ _ _ hm]
  · simp [hk]

/-- A write keeps the store's canonical form. -/
theorem busWrite_wf (a : Word) (v : Byte) (s : State) (hm : s.store.wf = true) : (busWrite a v s).store.wf = true := by
  rw [busWrite_store]; split
  · exact Memory.write_wf _ _ _ a.isLt hm
  · exact hm

/-! ### Words, fetch -/

section readWord_after

variable (al ah : Word) (s : State)

@[simp] theorem readWord_after_a : ((readWord al ah s).after).a = s.a := by simp [readWord]
@[simp] theorem readWord_after_x : ((readWord al ah s).after).x = s.x := by simp [readWord]
@[simp] theorem readWord_after_y : ((readWord al ah s).after).y = s.y := by simp [readWord]
@[simp] theorem readWord_after_sp : ((readWord al ah s).after).sp = s.sp := by simp [readWord]
@[simp] theorem readWord_after_pc : ((readWord al ah s).after).pc = s.pc := by simp [readWord]
@[simp] theorem readWord_after_p : ((readWord al ah s).after).p = s.p := by simp [readWord]
@[simp] theorem readWord_after_store : ((readWord al ah s).after).store = s.store := by simp [readWord]
@[simp] theorem readWord_after_regions : ((readWord al ah s).after).regions = s.regions := by simp [readWord]
@[simp] theorem readWord_after_hasIntLines : ((readWord al ah s).after).hasIntLines = s.hasIntLines := by simp [readWord]
@[simp] theorem readWord_after_irqLine : ((readWord al ah s).after).irqLine = s.irqLine := by simp [readWord]
@[simp] theorem readWord_after_nmiPending : ((readWord al ah s).after).nmiPending = s.nmiPending := by simp [readWord]
@[simp] theorem readWord_after_cost : ((readWord al ah s).after).cost = s.cost := by simp [readWord]

end readWord_after

theorem readWord_after (al ah : Word) (s : State) :
    (readWord al ah s).after = s.setDeviceLog (readWord al ah s).after.deviceLog := by
  ext1 <;> simp

/-- A word of two storage bytes. -/
theorem readWord_storage (al ah : Word) (s : State) (hl : kindAt s al = some .ram ∨ kindAt s al = some .rom)
    (hh : kindAt s ah = some .ram ∨ kindAt s ah = some .rom) :
    readWord al ah s = { value := word (s.store.read ah.toNat) (s.store.read al.toNat), after := s } := by
  simp [readWord, busRead_storage al s hl, busRead_storage ah s hh]

section fetch_after

variable (s : State)

@[simp] theorem fetch_after_a : ((fetch s).after).a = s.a := by simp [fetch]
@[simp] theorem fetch_after_x : ((fetch s).after).x = s.x := by simp [fetch]
@[simp] theorem fetch_after_y : ((fetch s).after).y = s.y := by simp [fetch]
@[simp] theorem fetch_after_sp : ((fetch s).after).sp = s.sp := by simp [fetch]
@[simp] theorem fetch_after_p : ((fetch s).after).p = s.p := by simp [fetch]
@[simp] theorem fetch_after_store : ((fetch s).after).store = s.store := by simp [fetch]
@[simp] theorem fetch_after_regions : ((fetch s).after).regions = s.regions := by simp [fetch]
@[simp] theorem fetch_after_hasIntLines : ((fetch s).after).hasIntLines = s.hasIntLines := by simp [fetch]
@[simp] theorem fetch_after_irqLine : ((fetch s).after).irqLine = s.irqLine := by simp [fetch]
@[simp] theorem fetch_after_nmiPending : ((fetch s).after).nmiPending = s.nmiPending := by simp [fetch]
@[simp] theorem fetch_after_cost : ((fetch s).after).cost = s.cost := by simp [fetch]

end fetch_after

@[simp] theorem fetch_after_pc (s : State) : (fetch s).after.pc = s.pc + 1#16 := by simp [fetch]

/-- A fetch from storage. -/
theorem fetch_storage (s : State) (h : kindAt s s.pc = some .ram ∨ kindAt s s.pc = some .rom) :
    fetch s = { value := s.store.read s.pc.toNat, after := s.setPc (s.pc + 1#16) } := by
  simp [fetch, busRead_storage s.pc s h]

/-! ### The stack -/

section push

variable (v : Byte) (s : State)

@[simp] theorem push_a : (push v s).a = s.a := by simp [push]
@[simp] theorem push_x : (push v s).x = s.x := by simp [push]
@[simp] theorem push_y : (push v s).y = s.y := by simp [push]
@[simp] theorem push_pc : (push v s).pc = s.pc := by simp [push]
@[simp] theorem push_p : (push v s).p = s.p := by simp [push]
@[simp] theorem push_regions : (push v s).regions = s.regions := by simp [push]
@[simp] theorem push_hasIntLines : (push v s).hasIntLines = s.hasIntLines := by simp [push]
@[simp] theorem push_irqLine : (push v s).irqLine = s.irqLine := by simp [push]
@[simp] theorem push_nmiPending : (push v s).nmiPending = s.nmiPending := by simp [push]
@[simp] theorem push_cost : (push v s).cost = s.cost := by simp [push]

end push

@[simp] theorem push_sp (v : Byte) (s : State) : (push v s).sp = s.sp - 1#8 := by simp [push]

theorem push_store (v : Byte) (s : State) : (push v s).store = (busWrite (stackAddr s.sp) v s).store := rfl

theorem push_deviceLog (v : Byte) (s : State) : (push v s).deviceLog = (busWrite (stackAddr s.sp) v s).deviceLog := rfl

@[simp] theorem kindAt_push (v : Byte) (b : Word) (s : State) : kindAt (push v s) b = kindAt s b :=
  kindAt_congr _ _ _ (by simp)

section pull_after

variable (s : State)

@[simp] theorem pull_after_a : ((pull s).after).a = s.a := by simp [pull]
@[simp] theorem pull_after_x : ((pull s).after).x = s.x := by simp [pull]
@[simp] theorem pull_after_y : ((pull s).after).y = s.y := by simp [pull]
@[simp] theorem pull_after_pc : ((pull s).after).pc = s.pc := by simp [pull]
@[simp] theorem pull_after_p : ((pull s).after).p = s.p := by simp [pull]
@[simp] theorem pull_after_store : ((pull s).after).store = s.store := by simp [pull]
@[simp] theorem pull_after_regions : ((pull s).after).regions = s.regions := by simp [pull]
@[simp] theorem pull_after_hasIntLines : ((pull s).after).hasIntLines = s.hasIntLines := by simp [pull]
@[simp] theorem pull_after_irqLine : ((pull s).after).irqLine = s.irqLine := by simp [pull]
@[simp] theorem pull_after_nmiPending : ((pull s).after).nmiPending = s.nmiPending := by simp [pull]
@[simp] theorem pull_after_cost : ((pull s).after).cost = s.cost := by simp [pull]

end pull_after

@[simp] theorem pull_after_sp (s : State) : (pull s).after.sp = s.sp + 1#8 := by simp [pull]

section pushWord

variable (w : Word) (s : State)

@[simp] theorem pushWord_a : (pushWord w s).a = s.a := by simp [pushWord]
@[simp] theorem pushWord_x : (pushWord w s).x = s.x := by simp [pushWord]
@[simp] theorem pushWord_y : (pushWord w s).y = s.y := by simp [pushWord]
@[simp] theorem pushWord_pc : (pushWord w s).pc = s.pc := by simp [pushWord]
@[simp] theorem pushWord_p : (pushWord w s).p = s.p := by simp [pushWord]
@[simp] theorem pushWord_regions : (pushWord w s).regions = s.regions := by simp [pushWord]
@[simp] theorem pushWord_hasIntLines : (pushWord w s).hasIntLines = s.hasIntLines := by simp [pushWord]
@[simp] theorem pushWord_irqLine : (pushWord w s).irqLine = s.irqLine := by simp [pushWord]
@[simp] theorem pushWord_nmiPending : (pushWord w s).nmiPending = s.nmiPending := by simp [pushWord]
@[simp] theorem pushWord_cost : (pushWord w s).cost = s.cost := by simp [pushWord]

end pushWord

@[simp] theorem pushWord_sp (w : Word) (s : State) : (pushWord w s).sp = s.sp - 2#8 := by
  simp only [pushWord, push_sp]; bv_omega

@[simp] theorem kindAt_pushWord (w : Word) (b : Word) (s : State) : kindAt (pushWord w s) b = kindAt s b :=
  kindAt_congr _ _ _ (by simp)

section pullWord_after

variable (s : State)

@[simp] theorem pullWord_after_a : ((pullWord s).after).a = s.a := by simp [pullWord]
@[simp] theorem pullWord_after_x : ((pullWord s).after).x = s.x := by simp [pullWord]
@[simp] theorem pullWord_after_y : ((pullWord s).after).y = s.y := by simp [pullWord]
@[simp] theorem pullWord_after_pc : ((pullWord s).after).pc = s.pc := by simp [pullWord]
@[simp] theorem pullWord_after_p : ((pullWord s).after).p = s.p := by simp [pullWord]
@[simp] theorem pullWord_after_store : ((pullWord s).after).store = s.store := by simp [pullWord]
@[simp] theorem pullWord_after_regions : ((pullWord s).after).regions = s.regions := by simp [pullWord]
@[simp] theorem pullWord_after_hasIntLines : ((pullWord s).after).hasIntLines = s.hasIntLines := by simp [pullWord]
@[simp] theorem pullWord_after_irqLine : ((pullWord s).after).irqLine = s.irqLine := by simp [pullWord]
@[simp] theorem pullWord_after_nmiPending : ((pullWord s).after).nmiPending = s.nmiPending := by simp [pullWord]
@[simp] theorem pullWord_after_cost : ((pullWord s).after).cost = s.cost := by simp [pullWord]

end pullWord_after

@[simp] theorem pullWord_after_sp (s : State) : (pullWord s).after.sp = s.sp + 2#8 := by
  simp only [pullWord, pull_after_sp]; bv_omega

/-- A pull from storage. -/
theorem pull_storage (s : State)
    (h : kindAt s (stackAddr (s.sp + 1#8)) = some .ram ∨ kindAt s (stackAddr (s.sp + 1#8)) = some .rom) :
    pull s = { value := s.store.read (stackAddr (s.sp + 1#8)).toNat, after := s.setSp (s.sp + 1#8) } := by
  unfold pull; rw [busRead_storage _ _ (by simpa using h)]; rfl

/-! ### The canonical form through the stack -/

theorem push_wf (v : Byte) (s : State) (h : s.store.wf = true) : (push v s).store.wf = true := busWrite_wf _ _ _ h

theorem pushWord_wf (w : Word) (s : State) (h : s.store.wf = true) : (pushWord w s).store.wf = true :=
  push_wf _ _ (push_wf _ _ h)

/-! ### Traps -/

section takeTrap

variable (ret : Word) (b : Bool) (vector : Word) (s : State)

@[simp] theorem takeTrap_a : (takeTrap ret b vector s).a = s.a := by simp [takeTrap]
@[simp] theorem takeTrap_x : (takeTrap ret b vector s).x = s.x := by simp [takeTrap]
@[simp] theorem takeTrap_y : (takeTrap ret b vector s).y = s.y := by simp [takeTrap]
@[simp] theorem takeTrap_regions : (takeTrap ret b vector s).regions = s.regions := by simp [takeTrap]
@[simp] theorem takeTrap_hasIntLines : (takeTrap ret b vector s).hasIntLines = s.hasIntLines := by simp [takeTrap]
@[simp] theorem takeTrap_irqLine : (takeTrap ret b vector s).irqLine = s.irqLine := by simp [takeTrap]
@[simp] theorem takeTrap_nmiPending : (takeTrap ret b vector s).nmiPending = s.nmiPending := by simp [takeTrap]

end takeTrap

@[simp] theorem takeTrap_sp (ret : Word) (b : Bool) (vector : Word) (s : State) :
    (takeTrap ret b vector s).sp = s.sp - 3#8 := by
  simp only [takeTrap, setCost_sp, setPc_sp, readWord_after_sp, setP_sp, push_sp, pushWord_sp]; bv_omega

@[simp] theorem takeTrap_p (ret : Word) (b : Bool) (vector : Word) (s : State) :
    (takeTrap ret b vector s).p = { s.p with i := true } := by simp [takeTrap]

@[simp] theorem takeTrap_cost (ret : Word) (b : Bool) (vector : Word) (s : State) :
    (takeTrap ret b vector s).cost = 7 := rfl

/-- The store after a trap: three pushes, the vector reads change nothing. -/
theorem takeTrap_store (ret : Word) (b : Bool) (vector : Word) (s : State) :
    (takeTrap ret b vector s).store = (push (s.p.pack b) (pushWord ret s)).store := by simp [takeTrap]

theorem takeTrap_wf (ret : Word) (b : Bool) (vector : Word) (s : State) (h : s.store.wf = true) :
    (takeTrap ret b vector s).store.wf = true := by
  rw [takeTrap_store]; exact push_wf _ _ (pushWord_wf _ _ h)

section returnFromTrap

variable (s : State)

@[simp] theorem returnFromTrap_a : (returnFromTrap s).a = s.a := by simp [returnFromTrap]
@[simp] theorem returnFromTrap_x : (returnFromTrap s).x = s.x := by simp [returnFromTrap]
@[simp] theorem returnFromTrap_y : (returnFromTrap s).y = s.y := by simp [returnFromTrap]
@[simp] theorem returnFromTrap_store : (returnFromTrap s).store = s.store := by simp [returnFromTrap]
@[simp] theorem returnFromTrap_regions : (returnFromTrap s).regions = s.regions := by simp [returnFromTrap]
@[simp] theorem returnFromTrap_hasIntLines : (returnFromTrap s).hasIntLines = s.hasIntLines := by simp [returnFromTrap]
@[simp] theorem returnFromTrap_irqLine : (returnFromTrap s).irqLine = s.irqLine := by simp [returnFromTrap]
@[simp] theorem returnFromTrap_nmiPending : (returnFromTrap s).nmiPending = s.nmiPending := by simp [returnFromTrap]

end returnFromTrap

@[simp] theorem returnFromTrap_sp (s : State) : (returnFromTrap s).sp = s.sp + 3#8 := by
  simp only [returnFromTrap, setCost_sp, setPc_sp, pullWord_after_sp, setP_sp, pull_after_sp]; bv_omega

@[simp] theorem returnFromTrap_p (s : State) : (returnFromTrap s).p = Flags.unpack (pull s).value := by
  simp [returnFromTrap]

@[simp] theorem returnFromTrap_cost (s : State) : (returnFromTrap s).cost = 6 := rfl

end Sys2Proof.Machine
end

