-- ==== Sys2Proof/Laws/Construct.lean ====
section
/-! SUPPORT. What the bypass and the host's writes during construction can do: they change the store and nothing else, they
keep its canonical form, and one write past the end refuses them all. -/

namespace Sys2Proof.Machine

@[simp] theorem andThen_next (s : State) (k : State → Answer) : andThen (.next s) k = k s := rfl
@[simp] theorem andThen_refused (q : Refusal) (k : State → Answer) : andThen (.refused q) k = .refused q := rfl

/-- What a next state of two acts in sequence comes from. -/
theorem andThen_eq_next {r : Answer} {k : State → Answer} {t : State} (h : andThen r k = .next t) :
    ∃ s, r = .next s ∧ k s = .next t := by
  cases r with
  | next s => exact ⟨s, rfl, h⟩
  | fault f => cases h
  | refused q => cases h

/-- `write_range` inside the store. -/
theorem writeRange_of_le (start : Nat) (bytes : List Byte) (s : State) (h : start + bytes.length ≤ Config.spaceSize) :
    writeRange start bytes s = .next (s.setStore (s.store.writeList start bytes)) := if_pos h

/-- `write_range` past the end of the store. -/
theorem writeRange_of_lt (start : Nat) (bytes : List Byte) (s : State) (h : Config.spaceSize < start + bytes.length) :
    writeRange start bytes s = .refused .rangePastStore := if_neg (by omega)

/-- The bypass keeps the canonical form. -/
theorem writeRange_wf (start : Nat) (bytes : List Byte) (s t : State) (h : writeRange start bytes s = .next t)
    (hs : s.store.wf = true) : t.store.wf = true := by
  unfold writeRange at h
  split at h
  · rename_i hr; cases h; exact Memory.writeList_wf _ _ _ hr hs
  · cases h

/-- Host writes that all lie inside the store: the store has them in order, and nothing else changes. -/
theorem placeBytes_of_le (ws : List BypassWrite) (s : State)
    (h : ∀ w ∈ ws, w.start + w.bytes.length ≤ Config.spaceSize) :
    placeBytes ws s = .next (s.setStore (ws.foldl (fun m w => m.writeList w.start w.bytes) s.store)) := by
  induction ws generalizing s with
  | nil => rfl
  | cons w ws ih =>
    rw [List.forall_mem_cons] at h
    rw [placeBytes, writeRange_of_le _ _ _ h.1, andThen_next, ih _ h.2]
    rfl

/-- A host write past the end of the store is refused, and the writes with it. -/
theorem placeBytes_of_lt (ws : List BypassWrite) (s : State)
    (h : ∃ w ∈ ws, Config.spaceSize < w.start + w.bytes.length) : placeBytes ws s = .refused .rangePastStore := by
  induction ws generalizing s with
  | nil => simp at h
  | cons w ws ih =>
    rw [placeBytes]
    rcases Nat.lt_or_ge Config.spaceSize (w.start + w.bytes.length) with hw | hw
    · rw [writeRange_of_lt _ _ _ hw, andThen_refused]
    · rw [writeRange_of_le _ _ _ hw, andThen_next]
      refine ih _ ?_
      obtain ⟨v, hv, hl⟩ := h
      rcases List.mem_cons.1 hv with rfl | hv
      · omega
      · exact ⟨v, hv, hl⟩

/-- Either all of the host's writes take effect, on the store alone, or they are refused. -/
theorem placeBytes_cases (ws : List BypassWrite) (s : State) :
    placeBytes ws s = .next (s.setStore (ws.foldl (fun m w => m.writeList w.start w.bytes) s.store)) ∨
      placeBytes ws s = .refused .rangePastStore := by
  by_cases h : ∃ w ∈ ws, Config.spaceSize < w.start + w.bytes.length
  · exact .inr (placeBytes_of_lt ws s h)
  · exact .inl (placeBytes_of_le ws s fun w hw => Nat.le_of_not_lt fun hl => h ⟨w, hw, hl⟩)

/-- The host's writes keep the canonical form. -/
theorem placeBytes_wf (ws : List BypassWrite) (s t : State) (h : placeBytes ws s = .next t) (hs : s.store.wf = true) :
    t.store.wf = true := by
  induction ws generalizing s with
  | nil => cases h; exact hs
  | cons w ws ih =>
    obtain ⟨u, hu, hp⟩ := andThen_eq_next h
    exact ih u hp (writeRange_wf _ _ _ _ hu hs)

end Sys2Proof.Machine
end

