-- ==== Sys2Proof/Laws/Decode.lean ====
section
/-! SUPPORT. The decoder and the encoder: what a list of bytes decodes to by the length of its opcode, and how many bytes an
instruction has. -/

namespace Sys2Proof

theorem decode_one (op : Byte) (rest : List Byte) (h : opcodeLength op = 1) :
    decode (op :: rest) = .ok (decodeOp op 0x00#8 0x00#8, rest) := by simp [decode, h]

theorem decode_two (op b1 : Byte) (rest : List Byte) (h : opcodeLength op = 2) :
    decode (op :: b1 :: rest) = .ok (decodeOp op b1 0x00#8, rest) := by simp [decode, h]

theorem decode_three (op b1 b2 : Byte) (rest : List Byte) (h : opcodeLength op = 3) :
    decode (op :: b1 :: b2 :: rest) = .ok (decodeOp op b1 b2, rest) := by simp [decode, h]

/-- Every instruction has one, two or three bytes (30_encoding.md R60). -/
theorem Mode.length_cases (m : Mode) : m.length = 1 ∨ m.length = 2 ∨ m.length = 3 := by cases m <;> simp [Mode.length]

theorem opcodeLength_cases (op : Byte) : opcodeLength op = 1 ∨ opcodeLength op = 2 ∨ opcodeLength op = 3 :=
  Mode.length_cases _

/-- The encoder gives as many bytes as the mode's format has. -/
theorem encode_length (i : Instr) : (encode i).length = i.length := by cases i <;> rfl

end Sys2Proof
end

