-- ==== Sys2Proof/Laws/Operands.lean ====
section
/-! SUPPORT. What the operand forms can change: resolving an address and reading an operand change the device history only,
storing and modifying go through one bus write. -/

namespace Sys2Proof.Machine

section zeroPagePointer_after

variable (z : Byte) (s : State)

@[simp] theorem zeroPagePointer_after_a : ((zeroPagePointer z s).after).a = s.a := by simp [zeroPagePointer]
@[simp] theorem zeroPagePointer_after_x : ((zeroPagePointer z s).after).x = s.x := by simp [zeroPagePointer]
@[simp] theorem zeroPagePointer_after_y : ((zeroPagePointer z s).after).y = s.y := by simp [zeroPagePointer]
@[simp] theorem zeroPagePointer_after_sp : ((zeroPagePointer z s).after).sp = s.sp := by simp [zeroPagePointer]
@[simp] theorem zeroPagePointer_after_pc : ((zeroPagePointer z s).after).pc = s.pc := by simp [zeroPagePointer]
@[simp] theorem zeroPagePointer_after_p : ((zeroPagePointer z s).after).p = s.p := by simp [zeroPagePointer]
@[simp] theorem zeroPagePointer_after_store : ((zeroPagePointer z s).after).store = s.store := by simp [zeroPagePointer]
@[simp] theorem zeroPagePointer_after_regions : ((zeroPagePointer z s).after).regions = s.regions := by simp [zeroPagePointer]
@[simp] theorem zeroPagePointer_after_hasIntLines : ((zeroPagePointer z s).after).hasIntLines = s.hasIntLines := by simp [zeroPagePointer]
@[simp] theorem zeroPagePointer_after_irqLine : ((zeroPagePointer z s).after).irqLine = s.irqLine := by simp [zeroPagePointer]
@[simp] theorem zeroPagePointer_after_nmiPending : ((zeroPagePointer z s).after).nmiPending = s.nmiPending := by simp [zeroPagePointer]
@[simp] theorem zeroPagePointer_after_cost : ((zeroPagePointer z s).after).cost = s.cost := by simp [zeroPagePointer]

end zeroPagePointer_after

section indirectTarget_after

variable (w : Word) (s : State)

@[simp] theorem indirectTarget_after_a : ((indirectTarget w s).after).a = s.a := by simp [indirectTarget]
@[simp] theorem indirectTarget_after_x : ((indirectTarget w s).after).x = s.x := by simp [indirectTarget]
@[simp] theorem indirectTarget_after_y : ((indirectTarget w s).after).y = s.y := by simp [indirectTarget]
@[simp] theorem indirectTarget_after_sp : ((indirectTarget w s).after).sp = s.sp := by simp [indirectTarget]
@[simp] theorem indirectTarget_after_pc : ((indirectTarget w s).after).pc = s.pc := by simp [indirectTarget]
@[simp] theorem indirectTarget_after_p : ((indirectTarget w s).after).p = s.p := by simp [indirectTarget]
@[simp] theorem indirectTarget_after_store : ((indirectTarget w s).after).store = s.store := by simp [indirectTarget]
@[simp] theorem indirectTarget_after_regions : ((indirectTarget w s).after).regions = s.regions := by simp [indirectTarget]
@[simp] theorem indirectTarget_after_hasIntLines : ((indirectTarget w s).after).hasIntLines = s.hasIntLines := by simp [indirectTarget]
@[simp] theorem indirectTarget_after_irqLine : ((indirectTarget w s).after).irqLine = s.irqLine := by simp [indirectTarget]
@[simp] theorem indirectTarget_after_nmiPending : ((indirectTarget w s).after).nmiPending = s.nmiPending := by simp [indirectTarget]
@[simp] theorem indirectTarget_after_cost : ((indirectTarget w s).after).cost = s.cost := by simp [indirectTarget]

end indirectTarget_after

section resolve_after

variable (m : MemOperand) (s : State)

@[simp] theorem resolve_after_a : ((resolve m s).after).a = s.a := by cases m <;> simp [resolve, indexed]
@[simp] theorem resolve_after_x : ((resolve m s).after).x = s.x := by cases m <;> simp [resolve, indexed]
@[simp] theorem resolve_after_y : ((resolve m s).after).y = s.y := by cases m <;> simp [resolve, indexed]
@[simp] theorem resolve_after_sp : ((resolve m s).after).sp = s.sp := by cases m <;> simp [resolve, indexed]
@[simp] theorem resolve_after_pc : ((resolve m s).after).pc = s.pc := by cases m <;> simp [resolve, indexed]
@[simp] theorem resolve_after_p : ((resolve m s).after).p = s.p := by cases m <;> simp [resolve, indexed]
@[simp] theorem resolve_after_store : ((resolve m s).after).store = s.store := by cases m <;> simp [resolve, indexed]
@[simp] theorem resolve_after_regions : ((resolve m s).after).regions = s.regions := by cases m <;> simp [resolve, indexed]
@[simp] theorem resolve_after_hasIntLines : ((resolve m s).after).hasIntLines = s.hasIntLines := by cases m <;> simp [resolve, indexed]
@[simp] theorem resolve_after_irqLine : ((resolve m s).after).irqLine = s.irqLine := by cases m <;> simp [resolve, indexed]
@[simp] theorem resolve_after_nmiPending : ((resolve m s).after).nmiPending = s.nmiPending := by cases m <;> simp [resolve, indexed]
@[simp] theorem resolve_after_cost : ((resolve m s).after).cost = s.cost := by cases m <;> simp [resolve, indexed]

end resolve_after

/-- Resolving an address changes the device history only. -/
theorem resolve_after (m : MemOperand) (s : State) :
    (resolve m s).after = s.setDeviceLog (resolve m s).after.deviceLog := by
  ext1 <;> simp

@[simp] theorem kindAt_resolve (m : MemOperand) (b : Word) (s : State) : kindAt (resolve m s).after b = kindAt s b :=
  kindAt_congr _ _ _ (by simp)

section readOperand_after

variable (o : Source) (s : State)

@[simp] theorem readOperand_after_a : ((readOperand o s).after).a = s.a := by cases o <;> simp [readOperand]
@[simp] theorem readOperand_after_x : ((readOperand o s).after).x = s.x := by cases o <;> simp [readOperand]
@[simp] theorem readOperand_after_y : ((readOperand o s).after).y = s.y := by cases o <;> simp [readOperand]
@[simp] theorem readOperand_after_sp : ((readOperand o s).after).sp = s.sp := by cases o <;> simp [readOperand]
@[simp] theorem readOperand_after_pc : ((readOperand o s).after).pc = s.pc := by cases o <;> simp [readOperand]
@[simp] theorem readOperand_after_p : ((readOperand o s).after).p = s.p := by cases o <;> simp [readOperand]
@[simp] theorem readOperand_after_store : ((readOperand o s).after).store = s.store := by cases o <;> simp [readOperand]
@[simp] theorem readOperand_after_regions : ((readOperand o s).after).regions = s.regions := by cases o <;> simp [readOperand]
@[simp] theorem readOperand_after_hasIntLines : ((readOperand o s).after).hasIntLines = s.hasIntLines := by cases o <;> simp [readOperand]
@[simp] theorem readOperand_after_irqLine : ((readOperand o s).after).irqLine = s.irqLine := by cases o <;> simp [readOperand]
@[simp] theorem readOperand_after_nmiPending : ((readOperand o s).after).nmiPending = s.nmiPending := by cases o <;> simp [readOperand]
@[simp] theorem readOperand_after_cost : ((readOperand o s).after).cost = s.cost := by cases o <;> simp [readOperand]

end readOperand_after

/-- Reading an operand changes the device history only. -/
theorem readOperand_after (o : Source) (s : State) :
    (readOperand o s).after = s.setDeviceLog (readOperand o s).after.deviceLog := by
  ext1 <;> simp

section storeOperand

variable (m : MemOperand) (v : Byte) (s : State)

@[simp] theorem storeOperand_a : (storeOperand m v s).a = s.a := by simp [storeOperand]
@[simp] theorem storeOperand_x : (storeOperand m v s).x = s.x := by simp [storeOperand]
@[simp] theorem storeOperand_y : (storeOperand m v s).y = s.y := by simp [storeOperand]
@[simp] theorem storeOperand_sp : (storeOperand m v s).sp = s.sp := by simp [storeOperand]
@[simp] theorem storeOperand_pc : (storeOperand m v s).pc = s.pc := by simp [storeOperand]
@[simp] theorem storeOperand_p : (storeOperand m v s).p = s.p := by simp [storeOperand]
@[simp] theorem storeOperand_regions : (storeOperand m v s).regions = s.regions := by simp [storeOperand]
@[simp] theorem storeOperand_hasIntLines : (storeOperand m v s).hasIntLines = s.hasIntLines := by simp [storeOperand]
@[simp] theorem storeOperand_irqLine : (storeOperand m v s).irqLine = s.irqLine := by simp [storeOperand]
@[simp] theorem storeOperand_nmiPending : (storeOperand m v s).nmiPending = s.nmiPending := by simp [storeOperand]

end storeOperand

/-- The store after a write-class instruction: one bus write at the effective address. -/
theorem storeOperand_store (m : MemOperand) (v : Byte) (s : State) :
    (storeOperand m v s).store = (busWrite (resolve m s).ea v (resolve m s).after).store := rfl

theorem storeOperand_wf (m : MemOperand) (v : Byte) (s : State) (h : s.store.wf = true) :
    (storeOperand m v s).store.wf = true := busWrite_wf _ _ _ (by simpa using h)

section modifyMemory

variable (m : MemOperand) (f : Byte → Flags → Result8) (s : State)

@[simp] theorem modifyMemory_a : (modifyMemory m f s).a = s.a := by simp [modifyMemory]
@[simp] theorem modifyMemory_x : (modifyMemory m f s).x = s.x := by simp [modifyMemory]
@[simp] theorem modifyMemory_y : (modifyMemory m f s).y = s.y := by simp [modifyMemory]
@[simp] theorem modifyMemory_sp : (modifyMemory m f s).sp = s.sp := by simp [modifyMemory]
@[simp] theorem modifyMemory_pc : (modifyMemory m f s).pc = s.pc := by simp [modifyMemory]
@[simp] theorem modifyMemory_regions : (modifyMemory m f s).regions = s.regions := by simp [modifyMemory]
@[simp] theorem modifyMemory_hasIntLines : (modifyMemory m f s).hasIntLines = s.hasIntLines := by simp [modifyMemory]
@[simp] theorem modifyMemory_irqLine : (modifyMemory m f s).irqLine = s.irqLine := by simp [modifyMemory]
@[simp] theorem modifyMemory_nmiPending : (modifyMemory m f s).nmiPending = s.nmiPending := by simp [modifyMemory]
@[simp] theorem modifyMemory_cost : (modifyMemory m f s).cost = s.cost := by simp [modifyMemory]

end modifyMemory

theorem modifyMemory_wf (m : MemOperand) (f : Byte → Flags → Result8) (s : State) (h : s.store.wf = true) :
    (modifyMemory m f s).store.wf = true := busWrite_wf _ _ _ (by simpa using h)

section modifyOperand

variable (t : Target) (f : Byte → Flags → Result8) (s : State)

@[simp] theorem modifyOperand_x : (modifyOperand t f s).x = s.x := by cases t <;> simp [modifyOperand, modifyAccumulator]
@[simp] theorem modifyOperand_y : (modifyOperand t f s).y = s.y := by cases t <;> simp [modifyOperand, modifyAccumulator]
@[simp] theorem modifyOperand_sp : (modifyOperand t f s).sp = s.sp := by cases t <;> simp [modifyOperand, modifyAccumulator]
@[simp] theorem modifyOperand_pc : (modifyOperand t f s).pc = s.pc := by cases t <;> simp [modifyOperand, modifyAccumulator]
@[simp] theorem modifyOperand_regions : (modifyOperand t f s).regions = s.regions := by cases t <;> simp [modifyOperand, modifyAccumulator]
@[simp] theorem modifyOperand_hasIntLines : (modifyOperand t f s).hasIntLines = s.hasIntLines := by cases t <;> simp [modifyOperand, modifyAccumulator]
@[simp] theorem modifyOperand_irqLine : (modifyOperand t f s).irqLine = s.irqLine := by cases t <;> simp [modifyOperand, modifyAccumulator]
@[simp] theorem modifyOperand_nmiPending : (modifyOperand t f s).nmiPending = s.nmiPending := by cases t <;> simp [modifyOperand, modifyAccumulator]

end modifyOperand

theorem modifyOperand_wf (t : Target) (f : Byte → Flags → Result8) (s : State) (h : s.store.wf = true) :
    (modifyOperand t f s).store.wf = true := by
  cases t <;> simp [modifyOperand, modifyAccumulator, modifyMemory_wf, h]

section branch

variable (cond : Bool) (off : Byte) (s : State)

@[simp] theorem branch_a : (branch cond off s).a = s.a := by unfold branch; split <;> rfl
@[simp] theorem branch_x : (branch cond off s).x = s.x := by unfold branch; split <;> rfl
@[simp] theorem branch_y : (branch cond off s).y = s.y := by unfold branch; split <;> rfl
@[simp] theorem branch_sp : (branch cond off s).sp = s.sp := by unfold branch; split <;> rfl
@[simp] theorem branch_p : (branch cond off s).p = s.p := by unfold branch; split <;> rfl
@[simp] theorem branch_store : (branch cond off s).store = s.store := by unfold branch; split <;> rfl
@[simp] theorem branch_regions : (branch cond off s).regions = s.regions := by unfold branch; split <;> rfl
@[simp] theorem branch_deviceLog : (branch cond off s).deviceLog = s.deviceLog := by unfold branch; split <;> rfl
@[simp] theorem branch_hasIntLines : (branch cond off s).hasIntLines = s.hasIntLines := by unfold branch; split <;> rfl
@[simp] theorem branch_irqLine : (branch cond off s).irqLine = s.irqLine := by unfold branch; split <;> rfl
@[simp] theorem branch_nmiPending : (branch cond off s).nmiPending = s.nmiPending := by unfold branch; split <;> rfl

end branch

theorem branch_pc (cond : Bool) (off : Byte) (s : State) :
    (branch cond off s).pc = if cond then branchTarget off s else s.pc := by
  unfold branch; split <;> rfl

end Sys2Proof.Machine
end

