-- ==== Sys2Proof/Laws/Meanings.lean ====
section
/-! SUPPORT. The shared meanings behind the arms of `exec`: one equation each, the whole next state as a record over the
state before, so that a proof about an instruction rewrites by it and never unfolds a meaning. -/

namespace Sys2Proof.Machine

/-- Every instruction completes (60_exceptions.md R230). -/
theorem exec_next (i : Instr) (s : State) : ∃ t, exec i s = .next t := by cases i <;> exact ⟨_, rfl⟩

/-! ### Loads, logic, arithmetic: one operand read -/

theorem loadA_eq (o : Source) (s : State) :
    loadA o s =
      { s with
        a := (readOperand o s).value, p := s.p.setNZ (readOperand o s).value
        deviceLog := (readOperand o s).after.deviceLog, cost := (readOperand o s).cost } := by
  ext1 <;> simp [loadA]

theorem loadX_eq (o : Source) (s : State) :
    loadX o s =
      { s with
        x := (readOperand o s).value, p := s.p.setNZ (readOperand o s).value
        deviceLog := (readOperand o s).after.deviceLog, cost := (readOperand o s).cost } := by
  ext1 <;> simp [loadX]

theorem loadY_eq (o : Source) (s : State) :
    loadY o s =
      { s with
        y := (readOperand o s).value, p := s.p.setNZ (readOperand o s).value
        deviceLog := (readOperand o s).after.deviceLog, cost := (readOperand o s).cost } := by
  ext1 <;> simp [loadY]

theorem logicA_eq (f : Byte → Byte → Byte) (o : Source) (s : State) :
    logicA f o s =
      { s with
        a := f s.a (readOperand o s).value, p := s.p.setNZ (f s.a (readOperand o s).value)
        deviceLog := (readOperand o s).after.deviceLog, cost := (readOperand o s).cost } := by
  ext1 <;> simp [logicA]

theorem bitTest_eq (o : Source) (s : State) :
    bitTest o s =
      { s with
        p := bitFlags s.a (readOperand o s).value s.p
        deviceLog := (readOperand o s).after.deviceLog, cost := (readOperand o s).cost } := by
  ext1 <;> simp [bitTest]

theorem accumulate_eq (f : Byte → Byte → Flags → Result8) (o : Source) (s : State) :
    accumulate f o s =
      { s with
        a := (f s.a (readOperand o s).value s.p).value, p := (f s.a (readOperand o s).value s.p).flags
        deviceLog := (readOperand o s).after.deviceLog, cost := (readOperand o s).cost } := by
  ext1 <;> simp [accumulate]

theorem compareA_eq (o : Source) (s : State) :
    compareA o s =
      { s with
        p := compareFlags s.a (readOperand o s).value s.p
        deviceLog := (readOperand o s).after.deviceLog, cost := (readOperand o s).cost } := by
  ext1 <;> simp [compareA]

theorem compareX_eq (o : Source) (s : State) :
    compareX o s =
      { s with
        p := compareFlags s.x (readOperand o s).value s.p
        deviceLog := (readOperand o s).after.deviceLog, cost := (readOperand o s).cost } := by
  ext1 <;> simp [compareX]

theorem compareY_eq (o : Source) (s : State) :
    compareY o s =
      { s with
        p := compareFlags s.y (readOperand o s).value s.p
        deviceLog := (readOperand o s).after.deviceLog, cost := (readOperand o s).cost } := by
  ext1 <;> simp [compareY]

/-! ### Stores and read-modify-writes: one bus write -/

theorem storeOperand_eq (m : MemOperand) (v : Byte) (s : State) :
    storeOperand m v s =
      { s with
        store := (storeOperand m v s).store
        deviceLog := (busWrite (resolve m s).ea v (resolve m s).after).deviceLog, cost := writeCost m } := by
  ext1 <;> simp [storeOperand]

theorem modifyMemory_eq (m : MemOperand) (f : Byte → Flags → Result8) (s : State) :
    let v := busRead (resolve m s).ea (resolve m s).after
    let r := f v.value s.p
    modifyMemory m f s =
      { s with
        p := r.flags, store := (busWrite (resolve m s).ea r.value v.after).store
        deviceLog := (busWrite (resolve m s).ea r.value v.after).deviceLog } := by
  ext1 <;> simp [modifyMemory, busWrite_store, busWrite_deviceLog]

theorem modifyAccumulator_eq (f : Byte → Flags → Result8) (s : State) :
    modifyAccumulator f s = { s with a := (f s.a s.p).value, p := (f s.a s.p).flags } := rfl

/-- The flags after a read-modify-write are those of its function, on some operand byte. -/
theorem modifyOperand_p (t : Target) (f : Byte → Flags → Result8) (s : State) :
    ∃ v, (modifyOperand t f s).p = (f v s.p).flags := by
  cases t <;> exact ⟨_, by simp [modifyOperand, modifyAccumulator_eq, modifyMemory_eq]; rfl⟩

@[simp] theorem modifyOperand_cost (t : Target) (f : Byte → Flags → Result8) (s : State) :
    (modifyOperand t f s).cost = rmwCost t := by cases t <;> rfl

/-! ### The stack, control transfer -/

theorem push_eq (v : Byte) (s : State) :
    push v s =
      { s with
        sp := s.sp - 1#8, store := (busWrite (stackAddr s.sp) v s).store
        deviceLog := (busWrite (stackAddr s.sp) v s).deviceLog } := by
  ext1 <;> simp [push]

theorem pull_value (s : State) : (pull s).value = (busRead (stackAddr (s.sp + 1#8)) s).value := by
  simp only [pull, busRead, kindAt_setSp, setSp_store, setSp_deviceLog]; split <;> rfl

theorem pull_deviceLog (s : State) :
    (pull s).after.deviceLog = (busRead (stackAddr (s.sp + 1#8)) s).after.deviceLog := by
  simp only [pull, busRead, kindAt_setSp, setSp_store, setSp_deviceLog]; split <;> rfl

theorem pull_after_eq (s : State) :
    (pull s).after =
      { s with sp := s.sp + 1#8, deviceLog := (busRead (stackAddr (s.sp + 1#8)) s).after.deviceLog } := by
  ext1 <;> simp [pull_deviceLog]

theorem pullA_eq (s : State) :
    pullA s =
      { s with
        a := (pull s).value, p := s.p.setNZ (pull s).value, sp := s.sp + 1#8, deviceLog := (pull s).after.deviceLog } := by
  ext1 <;> simp [pullA]

theorem pullP_eq (s : State) :
    pullP s = { s with p := Flags.unpack (pull s).value, sp := s.sp + 1#8, deviceLog := (pull s).after.deviceLog } := by
  ext1 <;> simp [pullP]

theorem jumpIndirect_eq (w : Word) (s : State) :
    jumpIndirect w s =
      { s with
        pc := (indirectTarget w s).value, deviceLog := (indirectTarget w s).after.deviceLog, cost := 5 } := by
  ext1 <;> simp [jumpIndirect, indirectTarget]

theorem jumpSubroutine_eq (w : Word) (s : State) :
    jumpSubroutine w s =
      { s with
        pc := w, sp := s.sp - 2#8, store := (pushWord (s.pc - 1#16) s).store
        deviceLog := (pushWord (s.pc - 1#16) s).deviceLog, cost := 6 } := by
  ext1 <;> simp [jumpSubroutine]

theorem returnSubroutine_eq (s : State) :
    returnSubroutine s =
      { s with
        pc := (pullWord s).value + 1#16, sp := s.sp + 2#8, deviceLog := (pullWord s).after.deviceLog, cost := 6 } := by
  ext1 <;> simp [returnSubroutine]

theorem branch_eq (cond : Bool) (off : Byte) (s : State) :
    branch cond off s =
      if cond then { s with pc := branchTarget off s, cost := 3 + (hi (branchTarget off s) != hi s.pc).toNat }
      else { s with cost := 2 } := rfl

end Sys2Proof.Machine
end

