-- ==== Sys2Proof/Laws/PerInstr.lean ====
section
/-! SUPPORT. One lemma per constructor of Instr: the opcode byte alone selects the mnemonic and the addressing mode (spec
30_encoding.md R60, R67). -/

namespace Sys2Proof.Laws.OpcodeIsRead

/-- The decoder reads, from the opcode byte alone, the instruction's own mnemonic and mode. -/
def Statement (i : Instr) : Prop :=
  i.wf = true → (decodeOp i.opcode 0x00#8 0x00#8).mnemonic = i.mnemonic ∧ (decodeOp i.opcode 0x00#8 0x00#8).mode = i.mode

/-- From the opcode byte, written out, and what the decoder reads from it. -/
theorem of_opcode {i : Instr} (op : Byte) (ho : i.opcode = op)
    (h : (decodeOp op 0x00#8 0x00#8).mnemonic = i.mnemonic ∧ (decodeOp op 0x00#8 0x00#8).mode = i.mode) :
    Statement i :=
  fun _ => ho ▸ h

theorem adcImm (v : Byte) : Statement (.adcImm v) := of_opcode 0x69#8 rfl ⟨rfl, rfl⟩
theorem adcZp (b : Byte) : Statement (.adcZp b) := of_opcode 0x65#8 rfl ⟨rfl, rfl⟩
theorem adcZpx (b : Byte) : Statement (.adcZpx b) := of_opcode 0x75#8 rfl ⟨rfl, rfl⟩
theorem adcAbs (w : Word) : Statement (.adcAbs w) := of_opcode 0x6D#8 rfl ⟨rfl, rfl⟩
theorem adcAbx (w : Word) : Statement (.adcAbx w) := of_opcode 0x7D#8 rfl ⟨rfl, rfl⟩
theorem adcAby (w : Word) : Statement (.adcAby w) := of_opcode 0x79#8 rfl ⟨rfl, rfl⟩
theorem adcIzx (b : Byte) : Statement (.adcIzx b) := of_opcode 0x61#8 rfl ⟨rfl, rfl⟩
theorem adcIzy (b : Byte) : Statement (.adcIzy b) := of_opcode 0x71#8 rfl ⟨rfl, rfl⟩
theorem andImm (v : Byte) : Statement (.andImm v) := of_opcode 0x29#8 rfl ⟨rfl, rfl⟩
theorem andZp (b : Byte) : Statement (.andZp b) := of_opcode 0x25#8 rfl ⟨rfl, rfl⟩
theorem andZpx (b : Byte) : Statement (.andZpx b) := of_opcode 0x35#8 rfl ⟨rfl, rfl⟩
theorem andAbs (w : Word) : Statement (.andAbs w) := of_opcode 0x2D#8 rfl ⟨rfl, rfl⟩
theorem andAbx (w : Word) : Statement (.andAbx w) := of_opcode 0x3D#8 rfl ⟨rfl, rfl⟩
theorem andAby (w : Word) : Statement (.andAby w) := of_opcode 0x39#8 rfl ⟨rfl, rfl⟩
theorem andIzx (b : Byte) : Statement (.andIzx b) := of_opcode 0x21#8 rfl ⟨rfl, rfl⟩
theorem andIzy (b : Byte) : Statement (.andIzy b) := of_opcode 0x31#8 rfl ⟨rfl, rfl⟩
theorem aslAcc : Statement .aslAcc := of_opcode 0x0A#8 rfl ⟨rfl, rfl⟩
theorem aslZp (b : Byte) : Statement (.aslZp b) := of_opcode 0x06#8 rfl ⟨rfl, rfl⟩
theorem aslZpx (b : Byte) : Statement (.aslZpx b) := of_opcode 0x16#8 rfl ⟨rfl, rfl⟩
theorem aslAbs (w : Word) : Statement (.aslAbs w) := of_opcode 0x0E#8 rfl ⟨rfl, rfl⟩
theorem aslAbx (w : Word) : Statement (.aslAbx w) := of_opcode 0x1E#8 rfl ⟨rfl, rfl⟩
theorem bcc (off : Byte) : Statement (.bcc off) := of_opcode 0x90#8 rfl ⟨rfl, rfl⟩
theorem bcs (off : Byte) : Statement (.bcs off) := of_opcode 0xB0#8 rfl ⟨rfl, rfl⟩
theorem beq (off : Byte) : Statement (.beq off) := of_opcode 0xF0#8 rfl ⟨rfl, rfl⟩
theorem bitZp (b : Byte) : Statement (.bitZp b) := of_opcode 0x24#8 rfl ⟨rfl, rfl⟩
theorem bitAbs (w : Word) : Statement (.bitAbs w) := of_opcode 0x2C#8 rfl ⟨rfl, rfl⟩
theorem bmi (off : Byte) : Statement (.bmi off) := of_opcode 0x30#8 rfl ⟨rfl, rfl⟩
theorem bne (off : Byte) : Statement (.bne off) := of_opcode 0xD0#8 rfl ⟨rfl, rfl⟩
theorem bpl (off : Byte) : Statement (.bpl off) := of_opcode 0x10#8 rfl ⟨rfl, rfl⟩
theorem brk : Statement .brk := of_opcode 0x00#8 rfl ⟨rfl, rfl⟩
theorem bvc (off : Byte) : Statement (.bvc off) := of_opcode 0x50#8 rfl ⟨rfl, rfl⟩
theorem bvs (off : Byte) : Statement (.bvs off) := of_opcode 0x70#8 rfl ⟨rfl, rfl⟩
theorem clc : Statement .clc := of_opcode 0x18#8 rfl ⟨rfl, rfl⟩
theorem cld : Statement .cld := of_opcode 0xD8#8 rfl ⟨rfl, rfl⟩
theorem cli : Statement .cli := of_opcode 0x58#8 rfl ⟨rfl, rfl⟩
theorem clv : Statement .clv := of_opcode 0xB8#8 rfl ⟨rfl, rfl⟩
theorem cmpImm (v : Byte) : Statement (.cmpImm v) := of_opcode 0xC9#8 rfl ⟨rfl, rfl⟩
theorem cmpZp (b : Byte) : Statement (.cmpZp b) := of_opcode 0xC5#8 rfl ⟨rfl, rfl⟩
theorem cmpZpx (b : Byte) : Statement (.cmpZpx b) := of_opcode 0xD5#8 rfl ⟨rfl, rfl⟩
theorem cmpAbs (w : Word) : Statement (.cmpAbs w) := of_opcode 0xCD#8 rfl ⟨rfl, rfl⟩
theorem cmpAbx (w : Word) : Statement (.cmpAbx w) := of_opcode 0xDD#8 rfl ⟨rfl, rfl⟩
theorem cmpAby (w : Word) : Statement (.cmpAby w) := of_opcode 0xD9#8 rfl ⟨rfl, rfl⟩
theorem cmpIzx (b : Byte) : Statement (.cmpIzx b) := of_opcode 0xC1#8 rfl ⟨rfl, rfl⟩
theorem cmpIzy (b : Byte) : Statement (.cmpIzy b) := of_opcode 0xD1#8 rfl ⟨rfl, rfl⟩
theorem cpxImm (v : Byte) : Statement (.cpxImm v) := of_opcode 0xE0#8 rfl ⟨rfl, rfl⟩
theorem cpxZp (b : Byte) : Statement (.cpxZp b) := of_opcode 0xE4#8 rfl ⟨rfl, rfl⟩
theorem cpxAbs (w : Word) : Statement (.cpxAbs w) := of_opcode 0xEC#8 rfl ⟨rfl, rfl⟩
theorem cpyImm (v : Byte) : Statement (.cpyImm v) := of_opcode 0xC0#8 rfl ⟨rfl, rfl⟩
theorem cpyZp (b : Byte) : Statement (.cpyZp b) := of_opcode 0xC4#8 rfl ⟨rfl, rfl⟩
theorem cpyAbs (w : Word) : Statement (.cpyAbs w) := of_opcode 0xCC#8 rfl ⟨rfl, rfl⟩
theorem decZp (b : Byte) : Statement (.decZp b) := of_opcode 0xC6#8 rfl ⟨rfl, rfl⟩
theorem decZpx (b : Byte) : Statement (.decZpx b) := of_opcode 0xD6#8 rfl ⟨rfl, rfl⟩
theorem decAbs (w : Word) : Statement (.decAbs w) := of_opcode 0xCE#8 rfl ⟨rfl, rfl⟩
theorem decAbx (w : Word) : Statement (.decAbx w) := of_opcode 0xDE#8 rfl ⟨rfl, rfl⟩
theorem dex : Statement .dex := of_opcode 0xCA#8 rfl ⟨rfl, rfl⟩
theorem dey : Statement .dey := of_opcode 0x88#8 rfl ⟨rfl, rfl⟩
theorem eorImm (v : Byte) : Statement (.eorImm v) := of_opcode 0x49#8 rfl ⟨rfl, rfl⟩
theorem eorZp (b : Byte) : Statement (.eorZp b) := of_opcode 0x45#8 rfl ⟨rfl, rfl⟩
theorem eorZpx (b : Byte) : Statement (.eorZpx b) := of_opcode 0x55#8 rfl ⟨rfl, rfl⟩
theorem eorAbs (w : Word) : Statement (.eorAbs w) := of_opcode 0x4D#8 rfl ⟨rfl, rfl⟩
theorem eorAbx (w : Word) : Statement (.eorAbx w) := of_opcode 0x5D#8 rfl ⟨rfl, rfl⟩
theorem eorAby (w : Word) : Statement (.eorAby w) := of_opcode 0x59#8 rfl ⟨rfl, rfl⟩
theorem eorIzx (b : Byte) : Statement (.eorIzx b) := of_opcode 0x41#8 rfl ⟨rfl, rfl⟩
theorem eorIzy (b : Byte) : Statement (.eorIzy b) := of_opcode 0x51#8 rfl ⟨rfl, rfl⟩
theorem incZp (b : Byte) : Statement (.incZp b) := of_opcode 0xE6#8 rfl ⟨rfl, rfl⟩
theorem incZpx (b : Byte) : Statement (.incZpx b) := of_opcode 0xF6#8 rfl ⟨rfl, rfl⟩
theorem incAbs (w : Word) : Statement (.incAbs w) := of_opcode 0xEE#8 rfl ⟨rfl, rfl⟩
theorem incAbx (w : Word) : Statement (.incAbx w) := of_opcode 0xFE#8 rfl ⟨rfl, rfl⟩
theorem inx : Statement .inx := of_opcode 0xE8#8 rfl ⟨rfl, rfl⟩
theorem iny : Statement .iny := of_opcode 0xC8#8 rfl ⟨rfl, rfl⟩
theorem jmpAbs (w : Word) : Statement (.jmpAbs w) := of_opcode 0x4C#8 rfl ⟨rfl, rfl⟩
theorem jmpInd (w : Word) : Statement (.jmpInd w) := of_opcode 0x6C#8 rfl ⟨rfl, rfl⟩
theorem jsr (w : Word) : Statement (.jsr w) := of_opcode 0x20#8 rfl ⟨rfl, rfl⟩
theorem ldaImm (v : Byte) : Statement (.ldaImm v) := of_opcode 0xA9#8 rfl ⟨rfl, rfl⟩
theorem ldaZp (b : Byte) : Statement (.ldaZp b) := of_opcode 0xA5#8 rfl ⟨rfl, rfl⟩
theorem ldaZpx (b : Byte) : Statement (.ldaZpx b) := of_opcode 0xB5#8 rfl ⟨rfl, rfl⟩
theorem ldaAbs (w : Word) : Statement (.ldaAbs w) := of_opcode 0xAD#8 rfl ⟨rfl, rfl⟩
theorem ldaAbx (w : Word) : Statement (.ldaAbx w) := of_opcode 0xBD#8 rfl ⟨rfl, rfl⟩
theorem ldaAby (w : Word) : Statement (.ldaAby w) := of_opcode 0xB9#8 rfl ⟨rfl, rfl⟩
theorem ldaIzx (b : Byte) : Statement (.ldaIzx b) := of_opcode 0xA1#8 rfl ⟨rfl, rfl⟩
theorem ldaIzy (b : Byte) : Statement (.ldaIzy b) := of_opcode 0xB1#8 rfl ⟨rfl, rfl⟩
theorem ldxImm (v : Byte) : Statement (.ldxImm v) := of_opcode 0xA2#8 rfl ⟨rfl, rfl⟩
theorem ldxZp (b : Byte) : Statement (.ldxZp b) := of_opcode 0xA6#8 rfl ⟨rfl, rfl⟩
theorem ldxZpy (b : Byte) : Statement (.ldxZpy b) := of_opcode 0xB6#8 rfl ⟨rfl, rfl⟩
theorem ldxAbs (w : Word) : Statement (.ldxAbs w) := of_opcode 0xAE#8 rfl ⟨rfl, rfl⟩
theorem ldxAby (w : Word) : Statement (.ldxAby w) := of_opcode 0xBE#8 rfl ⟨rfl, rfl⟩
theorem ldyImm (v : Byte) : Statement (.ldyImm v) := of_opcode 0xA0#8 rfl ⟨rfl, rfl⟩
theorem ldyZp (b : Byte) : Statement (.ldyZp b) := of_opcode 0xA4#8 rfl ⟨rfl, rfl⟩
theorem ldyZpx (b : Byte) : Statement (.ldyZpx b) := of_opcode 0xB4#8 rfl ⟨rfl, rfl⟩
theorem ldyAbs (w : Word) : Statement (.ldyAbs w) := of_opcode 0xAC#8 rfl ⟨rfl, rfl⟩
theorem ldyAbx (w : Word) : Statement (.ldyAbx w) := of_opcode 0xBC#8 rfl ⟨rfl, rfl⟩
theorem lsrAcc : Statement .lsrAcc := of_opcode 0x4A#8 rfl ⟨rfl, rfl⟩
theorem lsrZp (b : Byte) : Statement (.lsrZp b) := of_opcode 0x46#8 rfl ⟨rfl, rfl⟩
theorem lsrZpx (b : Byte) : Statement (.lsrZpx b) := of_opcode 0x56#8 rfl ⟨rfl, rfl⟩
theorem lsrAbs (w : Word) : Statement (.lsrAbs w) := of_opcode 0x4E#8 rfl ⟨rfl, rfl⟩
theorem lsrAbx (w : Word) : Statement (.lsrAbx w) := of_opcode 0x5E#8 rfl ⟨rfl, rfl⟩
theorem nop : Statement .nop := of_opcode 0xEA#8 rfl ⟨rfl, rfl⟩
theorem oraImm (v : Byte) : Statement (.oraImm v) := of_opcode 0x09#8 rfl ⟨rfl, rfl⟩
theorem oraZp (b : Byte) : Statement (.oraZp b) := of_opcode 0x05#8 rfl ⟨rfl, rfl⟩
theorem oraZpx (b : Byte) : Statement (.oraZpx b) := of_opcode 0x15#8 rfl ⟨rfl, rfl⟩
theorem oraAbs (w : Word) : Statement (.oraAbs w) := of_opcode 0x0D#8 rfl ⟨rfl, rfl⟩
theorem oraAbx (w : Word) : Statement (.oraAbx w) := of_opcode 0x1D#8 rfl ⟨rfl, rfl⟩
theorem oraAby (w : Word) : Statement (.oraAby w) := of_opcode 0x19#8 rfl ⟨rfl, rfl⟩
theorem oraIzx (b : Byte) : Statement (.oraIzx b) := of_opcode 0x01#8 rfl ⟨rfl, rfl⟩
theorem oraIzy (b : Byte) : Statement (.oraIzy b) := of_opcode 0x11#8 rfl ⟨rfl, rfl⟩
theorem pha : Statement .pha := of_opcode 0x48#8 rfl ⟨rfl, rfl⟩
theorem php : Statement .php := of_opcode 0x08#8 rfl ⟨rfl, rfl⟩
theorem pla : Statement .pla := of_opcode 0x68#8 rfl ⟨rfl, rfl⟩
theorem plp : Statement .plp := of_opcode 0x28#8 rfl ⟨rfl, rfl⟩
theorem rolAcc : Statement .rolAcc := of_opcode 0x2A#8 rfl ⟨rfl, rfl⟩
theorem rolZp (b : Byte) : Statement (.rolZp b) := of_opcode 0x26#8 rfl ⟨rfl, rfl⟩
theorem rolZpx (b : Byte) : Statement (.rolZpx b) := of_opcode 0x36#8 rfl ⟨rfl, rfl⟩
theorem rolAbs (w : Word) : Statement (.rolAbs w) := of_opcode 0x2E#8 rfl ⟨rfl, rfl⟩
theorem rolAbx (w : Word) : Statement (.rolAbx w) := of_opcode 0x3E#8 rfl ⟨rfl, rfl⟩
theorem rorAcc : Statement .rorAcc := of_opcode 0x6A#8 rfl ⟨rfl, rfl⟩
theorem rorZp (b : Byte) : Statement (.rorZp b) := of_opcode 0x66#8 rfl ⟨rfl, rfl⟩
theorem rorZpx (b : Byte) : Statement (.rorZpx b) := of_opcode 0x76#8 rfl ⟨rfl, rfl⟩
theorem rorAbs (w : Word) : Statement (.rorAbs w) := of_opcode 0x6E#8 rfl ⟨rfl, rfl⟩
theorem rorAbx (w : Word) : Statement (.rorAbx w) := of_opcode 0x7E#8 rfl ⟨rfl, rfl⟩
theorem rti : Statement .rti := of_opcode 0x40#8 rfl ⟨rfl, rfl⟩
theorem rts : Statement .rts := of_opcode 0x60#8 rfl ⟨rfl, rfl⟩
theorem sbcImm (v : Byte) : Statement (.sbcImm v) := of_opcode 0xE9#8 rfl ⟨rfl, rfl⟩
theorem sbcZp (b : Byte) : Statement (.sbcZp b) := of_opcode 0xE5#8 rfl ⟨rfl, rfl⟩
theorem sbcZpx (b : Byte) : Statement (.sbcZpx b) := of_opcode 0xF5#8 rfl ⟨rfl, rfl⟩
theorem sbcAbs (w : Word) : Statement (.sbcAbs w) := of_opcode 0xED#8 rfl ⟨rfl, rfl⟩
theorem sbcAbx (w : Word) : Statement (.sbcAbx w) := of_opcode 0xFD#8 rfl ⟨rfl, rfl⟩
theorem sbcAby (w : Word) : Statement (.sbcAby w) := of_opcode 0xF9#8 rfl ⟨rfl, rfl⟩
theorem sbcIzx (b : Byte) : Statement (.sbcIzx b) := of_opcode 0xE1#8 rfl ⟨rfl, rfl⟩
theorem sbcIzy (b : Byte) : Statement (.sbcIzy b) := of_opcode 0xF1#8 rfl ⟨rfl, rfl⟩
theorem sec : Statement .sec := of_opcode 0x38#8 rfl ⟨rfl, rfl⟩
theorem sed : Statement .sed := of_opcode 0xF8#8 rfl ⟨rfl, rfl⟩
theorem sei : Statement .sei := of_opcode 0x78#8 rfl ⟨rfl, rfl⟩
theorem staZp (b : Byte) : Statement (.staZp b) := of_opcode 0x85#8 rfl ⟨rfl, rfl⟩
theorem staZpx (b : Byte) : Statement (.staZpx b) := of_opcode 0x95#8 rfl ⟨rfl, rfl⟩
theorem staAbs (w : Word) : Statement (.staAbs w) := of_opcode 0x8D#8 rfl ⟨rfl, rfl⟩
theorem staAbx (w : Word) : Statement (.staAbx w) := of_opcode 0x9D#8 rfl ⟨rfl, rfl⟩
theorem staAby (w : Word) : Statement (.staAby w) := of_opcode 0x99#8 rfl ⟨rfl, rfl⟩
theorem staIzx (b : Byte) : Statement (.staIzx b) := of_opcode 0x81#8 rfl ⟨rfl, rfl⟩
theorem staIzy (b : Byte) : Statement (.staIzy b) := of_opcode 0x91#8 rfl ⟨rfl, rfl⟩
theorem stxZp (b : Byte) : Statement (.stxZp b) := of_opcode 0x86#8 rfl ⟨rfl, rfl⟩
theorem stxZpy (b : Byte) : Statement (.stxZpy b) := of_opcode 0x96#8 rfl ⟨rfl, rfl⟩
theorem stxAbs (w : Word) : Statement (.stxAbs w) := of_opcode 0x8E#8 rfl ⟨rfl, rfl⟩
theorem styZp (b : Byte) : Statement (.styZp b) := of_opcode 0x84#8 rfl ⟨rfl, rfl⟩
theorem styZpx (b : Byte) : Statement (.styZpx b) := of_opcode 0x94#8 rfl ⟨rfl, rfl⟩
theorem styAbs (w : Word) : Statement (.styAbs w) := of_opcode 0x8C#8 rfl ⟨rfl, rfl⟩
theorem tax : Statement .tax := of_opcode 0xAA#8 rfl ⟨rfl, rfl⟩
theorem tay : Statement .tay := of_opcode 0xA8#8 rfl ⟨rfl, rfl⟩
theorem tsx : Statement .tsx := of_opcode 0xBA#8 rfl ⟨rfl, rfl⟩
theorem txa : Statement .txa := of_opcode 0x8A#8 rfl ⟨rfl, rfl⟩
theorem txs : Statement .txs := of_opcode 0x9A#8 rfl ⟨rfl, rfl⟩
theorem tya : Statement .tya := of_opcode 0x98#8 rfl ⟨rfl, rfl⟩

/-- Each of the 105 illegal bytes decodes to ILL, one byte long. -/
theorem illegal_bytes : ∀ op ∈ illegalOpcodes, ∀ b1 b2 : Byte, decodeOp op b1 b2 = .ill op := by
  simp only [illegalOpcodes, List.cons_append, List.nil_append]
  repeat refine List.forall_mem_cons.2 ⟨fun _ _ => rfl, ?_⟩
  exact List.forall_mem_nil _

theorem ill (op : Byte) : Statement (.ill op) := by
  intro h
  have hm : op ∈ illegalOpcodes := by simpa [Instr.wf] using h
  show (decodeOp op 0x00#8 0x00#8).mnemonic = .ILL ∧ (decodeOp op 0x00#8 0x00#8).mode = .IMP
  rw [illegal_bytes op hm]
  exact ⟨rfl, rfl⟩

end Sys2Proof.Laws.OpcodeIsRead
end

