-- ==== Sys2Proof/Laws/Step.lean ====
section
/-! SUPPORT. What fetching an instruction and executing one can change, and that every operation keeps the store's canonical
form. -/

namespace Sys2Proof.Machine

/-! ### Fetching an instruction moves `pc` and may call a device, nothing else -/

section fetchInstr

variable (s : State)

@[simp] theorem fetchInstr_after_a : (fetchInstr s).after.a = s.a := by unfold fetchInstr; simp only; split <;> simp
@[simp] theorem fetchInstr_after_x : (fetchInstr s).after.x = s.x := by unfold fetchInstr; simp only; split <;> simp
@[simp] theorem fetchInstr_after_y : (fetchInstr s).after.y = s.y := by unfold fetchInstr; simp only; split <;> simp
@[simp] theorem fetchInstr_after_sp : (fetchInstr s).after.sp = s.sp := by unfold fetchInstr; simp only; split <;> simp
@[simp] theorem fetchInstr_after_p : (fetchInstr s).after.p = s.p := by unfold fetchInstr; simp only; split <;> simp
@[simp] theorem fetchInstr_after_store : (fetchInstr s).after.store = s.store := by
  unfold fetchInstr; simp only; split <;> simp
@[simp] theorem fetchInstr_after_regions : (fetchInstr s).after.regions = s.regions := by
  unfold fetchInstr; simp only; split <;> simp
@[simp] theorem fetchInstr_after_hasIntLines : (fetchInstr s).after.hasIntLines = s.hasIntLines := by
  unfold fetchInstr; simp only; split <;> simp
@[simp] theorem fetchInstr_after_irqLine : (fetchInstr s).after.irqLine = s.irqLine := by
  unfold fetchInstr; simp only; split <;> simp
@[simp] theorem fetchInstr_after_nmiPending : (fetchInstr s).after.nmiPending = s.nmiPending := by
  unfold fetchInstr; simp only; split <;> simp

end fetchInstr

@[simp] theorem kindAt_fetchInstr (s : State) (a : Word) : kindAt (fetchInstr s).after a = kindAt s a :=
  kindAt_congr _ _ _ (by simp)

/-- A step without a due interrupt. -/
theorem step_of_no_interrupt (s : State) (h : dueInterrupt s = none) :
    step s = exec (fetchInstr s).instr (fetchInstr s).after := by
  unfold step; rw [h]

/-- A step with a due interrupt. -/
theorem step_of_interrupt (s : State) (k : Interrupt) (h : dueInterrupt s = some k) :
    step s = .next (enterInterrupt k s) := by
  unfold step; rw [h]

/-! ### What no instruction changes -/

/-- No instruction changes the region table, the presence of the lines, the IRQ line or the NMI latch. -/
theorem exec_configuration (i : Instr) (s t : State) (h : exec i s = .next t) :
    t.regions = s.regions ∧ t.hasIntLines = s.hasIntLines ∧ t.irqLine = s.irqLine ∧ t.nmiPending = s.nmiPending := by
  cases i <;> (cases h) <;>
    simp [storeA, storeX, storeY, loadA_eq, loadX_eq, loadY_eq, andA, orA, eorA, logicA_eq, bitTest_eq, addWithCarry,
      subtractWithBorrow, accumulate_eq, compareA_eq, compareX_eq, compareY_eq, pullA_eq, pullP_eq, jumpIndirect_eq,
      jumpSubroutine_eq, returnSubroutine_eq, shiftLeft, shiftRight, rotateLeft, rotateRight, increment, decrement]

/-! ### The canonical form -/

/-- Every instruction keeps the canonical form. -/
theorem exec_wf (i : Instr) (s t : State) (h : exec i s = .next t) (hs : s.store.wf = true) : t.store.wf = true := by
  cases i <;> (cases h) <;>
    simp [storeA, storeX, storeY, loadA_eq, loadX_eq, loadY_eq, andA, orA, eorA, logicA_eq, bitTest_eq, addWithCarry,
      subtractWithBorrow, accumulate_eq, compareA_eq, compareX_eq, compareY_eq, pullA_eq, pullP_eq, jumpIndirect_eq,
      jumpSubroutine_eq, returnSubroutine_eq, shiftLeft, shiftRight, rotateLeft, rotateRight, increment, decrement,
      storeOperand_wf, modifyOperand_wf, push_wf, pushWord_wf, takeTrap_wf, hs]

/-- Placing an instruction keeps it. -/
theorem withFetchWord_wf (s : State) (nbits w : Nat) (hs : s.store.wf = true) :
    (s.withFetchWord nbits w).store.wf = true :=
  Memory.write_wf _ _ _ (BitVec.isLt _) (Memory.write_wf _ _ _ (BitVec.isLt _) (Memory.write_wf _ _ _ (BitVec.isLt _) hs))

/-- The reset store has it. -/
theorem reset_wf : State.reset.store.wf = true := rfl

end Sys2Proof.Machine
end

