-- ==== Sys2Proof/Tests/Slice0.lean ====
section
/-! SUPPORT. The model's own tests: the vectors of spec 95_test_vectors.md (their ids in the comments), one step each on a
small state; the checks of well-formedness on ill-formed terms; decoding of words written out from 30_encoding.md; and for
every statement with hypotheses a concrete case that meets them together. -/

namespace Sys2Proof.Tests

open Sys2Proof.Machine

/-! ### Helpers -/

/-- The default start state of 95_test_vectors.md part 2: all `RAM`, `pc` = 0x0200, `S` = 0xFD, I = 1. -/
def start : State := State.reset.setPc 0x0200#16

/-- The flags N V D I Z C, in that order. -/
def fl (n v d i z c : Bool) : Flags := { n := n, v := v, d := d, i := i, z := z, c := c }

/-- Bytes in the store from an address on. -/
def put (a : Nat) (bs : List Byte) (s : State) : State := s.setStore (s.store.writeList a bs)

/-- The state after one step (`State.reset` if there were none). -/
def after (s : State) : State :=
  match step s with
  | .next t => t
  | .fault _ | .refused _ => State.reset

/-- An outcome is a next state with a property. -/
def nextWith (o : Answer) (q : State → Bool) : Bool :=
  match o with
  | .next t => q t
  | .fault _ | .refused _ => false

/-- One region of each kind, with an unmapped rest: the configuration of vectors M1 to M10, the `ROM` contents aside. -/
def mixedRegions : List Region :=
  [{ start := 0x0000, length := 0x0400, kind := .ram }, { start := 0x0400, length := 0x0400, kind := .rom },
   { start := 0xF000, length := 2, kind := .device 7 }]

/-- A state over `mixedRegions` with two `ROM` bytes 0xA5. -/
def mixed : State := put 0x07FF [0xA5#8] (put 0x0400 [0xA5#8] { start with regions := mixedRegions })

/-- Every address is one device's. -/
def allDevice : State := { start with regions := [{ start := 0, length := 65536, kind := .device 7 }] }

/-- The start state of the interrupt vectors I1 to I4. -/
def withLines (irq nmi i : Bool) : State :=
  put 0x0200 [0xEA#8]
    (put 0xFFFA [0x00#8, 0x05#8, 0x00#8, 0xFF#8, 0x00#8, 0x04#8]
      { start with
        sp := 0xFF#8, p := fl false false false i false true, hasIntLines := true, irqLine := irq, nmiPending := nmi })

/-- A descriptor without initial contents. -/
def plainRegion (start length : Nat) (readOnly : Bool) : RegionDescriptor where
  start := start
  length := length
  readOnly := readOnly
  initialSource := none
  sourceOffset := 0
  device := none

/-- A construction input over some regions. -/
def inputOver (rs : List RegionDescriptor) (pc : Option Nat) : ConstructionInput :=
  { resetInput with regions := rs, initialPc := pc }

/-! ### Well-formedness refuses what is ill-formed -/

/-- 0xA9 is LDA, no illegal opcode (30_encoding.md R66). -/
theorem test_wf_refuses_legal_opcode_as_ill : (Instr.ill 0xA9#8).wf = false := by decide
theorem test_wf_accepts_ill : (Instr.ill 0x02#8).wf = true ∧ (Instr.ill 0xFF#8).wf = true := by decide
/-- M11: overlap at 0x03FF -/
theorem test_regions_refuse_overlap :
    validRegions ([plainRegion 0 0x0400 false, plainRegion 0x03FF 2 true].map descriptorRegion) = false := by decide
/-- M12: zero length -/
theorem test_regions_refuse_zero_length : validRegions ([plainRegion 0 0 false].map descriptorRegion) = false := by decide
/-- M13: end above 0x10000 -/
theorem test_regions_refuse_past_end : validRegions ([plainRegion 0xFFFF 2 false].map descriptorRegion) = false := by decide
/-- M14, and two adjacent regions up to the end -/
theorem test_regions_accept : validRegions [] = true ∧
    validRegions ([plainRegion 0x8000 0x8000 true, plainRegion 0 0x8000 false].map descriptorRegion) = true := by decide

/-! ### Decoding, words written out from 30_encoding.md R63, R64 -/

theorem test_decode_arithmetic : decode [0x7D#8, 0xF0#8, 0x12#8] = .ok (.adcAbx 0x12F0#16, []) := by rfl
theorem test_decode_compare : decode [0xC0#8, 0x05#8] = .ok (.cpyImm 0x05#8, []) := by rfl
theorem test_decode_load : decode [0xB1#8, 0xFF#8, 0x99#8] = .ok (.ldaIzy 0xFF#8, [0x99#8]) := by rfl
theorem test_decode_store : decode [0x94#8, 0x20#8] = .ok (.styZpx 0x20#8, []) := by rfl
theorem test_decode_transfer : decode [0x9A#8] = .ok (.txs, []) := by rfl
theorem test_decode_stack : decode [0x28#8] = .ok (.plp, []) := by rfl
theorem test_decode_logic : decode [0x19#8, 0x34#8, 0x12#8] = .ok (.oraAby 0x1234#16, []) := by rfl
theorem test_decode_shift : decode [0x2A#8] = .ok (.rolAcc, []) := by rfl
theorem test_decode_incdec : decode [0xDE#8, 0xFF#8, 0xFF#8] = .ok (.decAbx 0xFFFF#16, []) := by rfl
theorem test_decode_control : decode [0x6C#8, 0xFF#8, 0x03#8] = .ok (.jmpInd 0x03FF#16, []) := by rfl
theorem test_decode_branch : decode [0x70#8, 0x80#8] = .ok (.bvs 0x80#8, []) := by rfl
theorem test_decode_system : decode [0x40#8] = .ok (.rti, []) ∧ decode [0x04#8, 0x10#8] = .ok (.ill 0x04#8, [0x10#8]) :=
  ⟨rfl, rfl⟩
theorem test_decode_missing_operand : decode [0xAD#8, 0x34#8] = .error (.operandMissing 0xAD#8) ∧ decode [] = .error .noOpcode :=
  ⟨rfl, rfl⟩
/-- The table's numbering: the opcode in bits 7 to 0, the operands above. -/
theorem test_table_word : decodeTableWord 24 0x1234AD = some (.ldaAbs 0x1234#16) ∧
    decodeTableWord 8 0xAD = some (.ldaAbs 0#16) ∧ decodeTableWord 8 0x80 = some (.ill 0x80#8) := by decide
/-- The very next step runs the word placed, with an interrupt pending and `pc` in unmapped space too. -/
theorem test_fetch_word_runs :
    (after (State.reset.withFetchWord 16 0x42A9)).a = 0x42#8 ∧
    (after ((withLines true true false).withFetchWord 16 0x42A9)).a = 0x42#8 ∧
    (after ((mixed.setPc 0xFFFF#16).withFetchWord 24 0x1234A9)).pc = 0x0001#16 := by decide
/-- From reset with nothing placed: the empty store is BRK at 0x0000 (notes/assumptions/9.md). -/
theorem test_reset_runs : (after State.reset).pc = 0x0000#16 ∧ (after State.reset).sp = 0xFA#8 := by decide

/-! ### Vectors, one step each -/

/-- T1 -/
theorem test_lda_imm :
    let t := after (put 0x0200 [0xA9#8, 0x00#8] { start with a := 0x55#8 })
    t.pc = 0x0202#16 ∧ t.a = 0x00#8 ∧ t.p = fl false false false true true false ∧ t.cost = 2 := by decide
/-- T4 -/
theorem test_lda_zpx_wraps :
    let t := after (put 0x0200 [0xB5#8, 0xF0#8] (put 0x0110 [0x99#8] (put 0x0010 [0x42#8] { start with x := 0x20#8 })))
    t.a = 0x42#8 ∧ t.cost = 4 := by decide
/-- T7 -/
theorem test_lda_aby_wraps :
    let t := after (put 0x0200 [0xB9#8, 0xFF#8, 0xFF#8] (put 0x0001 [0xAB#8] { start with y := 0x02#8 }))
    t.a = 0xAB#8 ∧ t.pc = 0x0203#16 ∧ t.p = fl true false false true false false ∧ t.cost = 5 := by decide
/-- T8 -/
theorem test_lda_izx_pointer_wraps :
    let t := after (put 0x0200 [0xA1#8, 0xFE#8] (put 0x1234 [0x5A#8] (put 0x0000 [0x12#8] (put 0x00FF [0x34#8] { start with x := 0x01#8 }))))
    t.a = 0x5A#8 ∧ t.cost = 6 := by decide
/-- T9 -/
theorem test_lda_izy_pointer_wraps :
    let t := after (put 0x0200 [0xB1#8, 0xFF#8] (put 0x1308 [0xC3#8] (put 0x0000 [0x12#8] (put 0x00FF [0xF8#8] { start with y := 0x10#8 }))))
    t.a = 0xC3#8 ∧ t.p = fl true false false true false false ∧ t.cost = 6 := by decide
/-- T10 -/
theorem test_ldx_zpy_wraps :
    let t := after (put 0x0200 [0xB6#8, 0xFF#8] (put 0x0001 [0x80#8] { start with y := 0x02#8 }))
    t.x = 0x80#8 ∧ t.p = fl true false false true false false ∧ t.cost = 4 := by decide
/-- T11 -/
theorem test_ldy_abs :
    let t := after (put 0x0200 [0xAC#8, 0x34#8, 0x12#8] { start with y := 0x07#8 })
    t.pc = 0x0203#16 ∧ t.y = 0x00#8 ∧ t.p = fl false false false true true false ∧ t.cost = 4 := by decide
/-- T15 -/
theorem test_sta_izy :
    let t := after (put 0x0200 [0x91#8, 0x40#8] (put 0x0040 [0x01#8, 0x20#8] { start with a := 0xEE#8, y := 0xFF#8 }))
    t.store.read 0x2100 = 0xEE#8 ∧ t.cost = 6 := by decide
/-- T12 -/
theorem test_sta_abs_keeps_flags :
    let t := after (put 0x0200 [0x8D#8, 0x00#8, 0x03#8] { start with a := 0x80#8, p := fl false false false true true false })
    t.store.read 0x0300 = 0x80#8 ∧ t.p = fl false false false true true false ∧ t.cost = 4 := by decide
/-- T13 -/
theorem test_stx_zpy_wraps :
    let t := after (put 0x0200 [0x96#8, 0xFE#8] { start with x := 0x77#8, y := 0x03#8 })
    t.store.read 0x0001 = 0x77#8 ∧ t.cost = 4 := by decide
/-- T14 -/
theorem test_sty_zp_zero :
    let t := after (put 0x0200 [0x84#8, 0x20#8] (put 0x0020 [0xEE#8] start))
    t.store.read 0x0020 = 0x00#8 ∧ t.cost = 3 := by decide
/-- T17 -/
theorem test_tax :
    let t := after (put 0x0200 [0xAA#8] { start with a := 0x00#8, x := 0x05#8 })
    t.x = 0x00#8 ∧ t.p = fl false false false true true false ∧ t.pc = 0x0201#16 := by decide
/-- T18 -/
theorem test_tay :
    let t := after (put 0x0200 [0xA8#8] { start with a := 0x80#8 })
    t.y = 0x80#8 ∧ t.p = fl true false false true false false := by decide
/-- T19 -/
theorem test_txa :
    let t := after (put 0x0200 [0x8A#8] { start with a := 0x80#8, x := 0x7F#8, p := fl true false false true false false })
    t.a = 0x7F#8 ∧ t.p = fl false false false true false false := by decide
/-- T20 -/
theorem test_tya :
    let t := after (put 0x0200 [0x98#8] { start with y := 0xFF#8 })
    t.a = 0xFF#8 ∧ t.p = fl true false false true false false := by decide
/-- T21 -/
theorem test_tsx :
    let t := after (put 0x0200 [0xBA#8] start)
    t.x = 0xFD#8 ∧ t.p = fl true false false true false false := by decide
/-- T23 -/
theorem test_txs_no_flags :
    let t := after (put 0x0200 [0x9A#8] { start with x := 0x00#8, p := fl true false false true false false })
    t.sp = 0x00#8 ∧ t.p = fl true false false true false false := by decide
/-- T25 -/
theorem test_pha_wraps :
    let t := after (put 0x0200 [0x48#8] { start with a := 0x42#8, sp := 0x00#8 })
    t.sp = 0xFF#8 ∧ t.store.read 0x0100 = 0x42#8 ∧ t.cost = 3 := by decide
/-- T26 -/
theorem test_php :
    let t := after (put 0x0200 [0x08#8] { start with p := fl false false false true true true })
    t.sp = 0xFC#8 ∧ t.store.read 0x01FD = 0x37#8 := by decide
/-- T29 -/
theorem test_pla_wraps :
    let t := after (put 0x0200 [0x68#8] (put 0x0100 [0x80#8] { start with sp := 0xFF#8 }))
    t.a = 0x80#8 ∧ t.sp = 0x00#8 ∧ t.p = fl true false false true false false ∧ t.cost = 4 := by decide
/-- T30 -/
theorem test_plp :
    let t := after (put 0x0200 [0x28#8] (put 0x01FD [0xC3#8] { start with sp := 0xFC#8 }))
    t.sp = 0xFD#8 ∧ t.p = fl true true false false true true := by decide
/-- T34 -/
theorem test_and_imm :
    let t := after (put 0x0200 [0x29#8, 0xF0#8] { start with a := 0x8F#8 })
    t.a = 0x80#8 ∧ t.p = fl true false false true false false := by decide
/-- T35 -/
theorem test_ora_imm :
    let t := after (put 0x0200 [0x09#8, 0x80#8] { start with a := 0x01#8 })
    t.a = 0x81#8 ∧ t.p = fl true false false true false false := by decide
/-- T38 -/
theorem test_eor_imm :
    let t := after (put 0x0200 [0x49#8, 0xFF#8] { start with a := 0x0F#8 })
    t.a = 0xF0#8 ∧ t.p = fl true false false true false false := by decide
/-- T39 -/
theorem test_bit_zp :
    let t := after (put 0x0200 [0x24#8, 0x10#8] (put 0x0010 [0xC0#8] { start with a := 0x01#8 }))
    t.a = 0x01#8 ∧ t.p = fl true true false true true false ∧ t.cost = 3 := by decide
/-- T40 -/
theorem test_bit_abs :
    let t := after (put 0x0200 [0x2C#8, 0x00#8, 0x03#8] (put 0x0300 [0x3F#8] { start with a := 0xFF#8, p := fl true true false true false false }))
    t.p = fl false false false true false false ∧ t.pc = 0x0203#16 := by decide
/-- AB1 -/
theorem test_adc_overflow :
    let t := after (put 0x0200 [0x69#8, 0x50#8] { start with a := 0x50#8 })
    t.a = 0xA0#8 ∧ t.p = fl true true false true false false := by decide
/-- AB9 -/
theorem test_adc_carry :
    let t := after (put 0x0200 [0x69#8, 0x01#8] { start with a := 0xFF#8 })
    t.a = 0x00#8 ∧ t.p = fl false false false true true true := by decide
/-- SB2 -/
theorem test_sbc_overflow :
    let t := after (put 0x0200 [0xE9#8, 0xB0#8] { start with a := 0x50#8, p := fl false false false true false true })
    t.a = 0xA0#8 ∧ t.p = fl true true false true false false := by decide
/-- SB10 -/
theorem test_sbc_borrow :
    let t := after (put 0x0200 [0xE9#8, 0x00#8] { start with a := 0x00#8 })
    t.a = 0xFF#8 ∧ t.p = fl true false false true false false := by decide
/-- AD1 -/
theorem test_adc_decimal :
    let t := after (put 0x0200 [0x69#8, 0x46#8] { start with a := 0x58#8, p := fl false false true true false true })
    t.a = 0x05#8 ∧ t.p = fl true true true true false true := by decide
/-- AD8 -/
theorem test_adc_decimal_invalid :
    let t := after (put 0x0200 [0x69#8, 0x9D#8] { start with a := 0x9C#8, p := fl false false true true false false })
    t.a = 0x9F#8 ∧ t.p = fl false true true true false true := by decide
/-- SD4 -/
theorem test_sbc_decimal :
    let t := after (put 0x0200 [0xE9#8, 0x21#8] { start with a := 0x12#8, p := fl false false true true false true })
    t.a = 0x91#8 ∧ t.p = fl true false true true false false := by decide
/-- SD8 -/
theorem test_sbc_decimal_invalid :
    let t := after (put 0x0200 [0xE9#8, 0x00#8] { start with a := 0x0A#8, p := fl false false true true false true })
    t.a = 0x0A#8 ∧ t.p = fl false false true true false true := by decide
/-- CP2 -/
theorem test_cmp_borrow :
    let t := after (put 0x0200 [0xC9#8, 0x41#8] { start with a := 0x40#8 })
    t.a = 0x40#8 ∧ t.p = fl true false false true false false := by decide
/-- CP5 -/
theorem test_cmp_unsigned :
    let t := after (put 0x0200 [0xC9#8, 0x01#8] { start with a := 0x80#8 })
    t.p = fl false false false true false true := by decide
/-- CP10 -/
theorem test_cpx :
    let t := after (put 0x0200 [0xE0#8, 0x7F#8] { start with x := 0xFF#8 })
    t.x = 0xFF#8 ∧ t.p = fl true false false true false true := by decide
/-- CP12 -/
theorem test_cpy :
    let t := after (put 0x0200 [0xC0#8, 0x80#8] { start with y := 0x7F#8 })
    t.y = 0x7F#8 ∧ t.p = fl true false false true false false := by decide
/-- T43 -/
theorem test_asl_acc :
    let t := after (put 0x0200 [0x0A#8] { start with a := 0x41#8, p := fl false false false true false true })
    t.a = 0x82#8 ∧ t.p = fl true false false true false false ∧ t.cost = 2 := by decide
/-- T50 -/
theorem test_asl_zp :
    let t := after (put 0x0200 [0x06#8, 0x10#8] (put 0x0010 [0x55#8] start))
    t.store.read 0x0010 = 0xAA#8 ∧ t.p = fl true false false true false false ∧ t.cost = 5 := by decide
/-- T51 -/
theorem test_lsr_abs :
    let t := after (put 0x0200 [0x4E#8, 0x00#8, 0x03#8] (put 0x0300 [0xFF#8] start))
    t.store.read 0x0300 = 0x7F#8 ∧ t.p = fl false false false true false true ∧ t.cost = 6 := by decide
/-- T52 -/
theorem test_rol_zpx :
    let t := after (put 0x0200 [0x36#8, 0x10#8] (put 0x0011 [0x7F#8] { start with x := 0x01#8, p := fl false false false true false true }))
    t.store.read 0x0011 = 0xFF#8 ∧ t.p = fl true false false true false false ∧ t.cost = 6 := by decide
/-- T48 -/
theorem test_ror_acc :
    let t := after (put 0x0200 [0x6A#8] { start with a := 0x01#8, p := fl false false false true false true })
    t.a = 0x80#8 ∧ t.p = fl true false false true false true := by decide
/-- T53 -/
theorem test_ror_abx :
    let t := after (put 0x0200 [0x7E#8, 0xFF#8, 0x02#8] (put 0x0300 [0x01#8] { start with x := 0x01#8 }))
    t.store.read 0x0300 = 0x00#8 ∧ t.p = fl false false false true true true ∧ t.cost = 7 := by decide
/-- T54 -/
theorem test_inc_zp_keeps_carry :
    let t := after (put 0x0200 [0xE6#8, 0x10#8] (put 0x0010 [0xFF#8] { start with p := fl false false false true false true }))
    t.store.read 0x0010 = 0x00#8 ∧ t.p = fl false false false true true true ∧ t.cost = 5 := by decide
/-- T56 -/
theorem test_dec_abs :
    let t := after (put 0x0200 [0xCE#8, 0x00#8, 0x03#8] start)
    t.store.read 0x0300 = 0xFF#8 ∧ t.p = fl true false false true false false ∧ t.cost = 6 := by decide
/-- T58 -/
theorem test_inx :
    let t := after (put 0x0200 [0xE8#8] { start with x := 0xFF#8 })
    t.x = 0x00#8 ∧ t.p = fl false false false true true false := by decide
/-- T59 -/
theorem test_iny :
    let t := after (put 0x0200 [0xC8#8] { start with y := 0x7F#8 })
    t.y = 0x80#8 ∧ t.p = fl true false false true false false := by decide
/-- T60 -/
theorem test_dex :
    let t := after (put 0x0200 [0xCA#8] { start with x := 0x00#8 })
    t.x = 0xFF#8 ∧ t.p = fl true false false true false false := by decide
/-- T61 -/
theorem test_dey :
    let t := after (put 0x0200 [0x88#8] { start with y := 0x01#8 })
    t.y = 0x00#8 ∧ t.p = fl false false false true true false := by decide
/-- T62 -/
theorem test_jmp_abs :
    let t := after (put 0x0200 [0x4C#8, 0x34#8, 0x12#8] start)
    t.pc = 0x1234#16 ∧ t.cost = 3 := by decide
/-- T64 -/
theorem test_jmp_ind_page_wrap :
    let t := after (put 0x0200 [0x6C#8, 0xFF#8, 0x03#8] (put 0x0400 [0x99#8] (put 0x0300 [0x56#8] (put 0x03FF [0x78#8] start))))
    t.pc = 0x5678#16 ∧ t.cost = 5 := by decide
/-- T66 -/
theorem test_jsr_wraps :
    let t := after (put 0x0200 [0x20#8, 0x34#8, 0x12#8] { start with sp := 0x00#8 })
    t.pc = 0x1234#16 ∧ t.sp = 0xFE#8 ∧ t.store.read 0x0100 = 0x02#8 ∧ t.store.read 0x01FF = 0x02#8 ∧ t.cost = 6 := by decide
/-- T68 -/
theorem test_rts :
    let t := after (put 0x0200 [0x60#8] (put 0x01FC [0xFF#8, 0xFF#8] { start with sp := 0xFB#8 }))
    t.pc = 0x0000#16 ∧ t.sp = 0xFD#8 ∧ t.cost = 6 := by decide
/-- T78 -/
theorem test_bne_wraps :
    let t := after (put 0xFFF8 [0xD0#8, 0x10#8] { start with pc := 0xFFF8#16 })
    t.pc = 0x000A#16 ∧ t.cost = 4 := by decide
/-- T70 -/
theorem test_bne_not_taken :
    let t := after (put 0x0200 [0xD0#8, 0x10#8] { start with p := fl false false false true true false })
    t.pc = 0x0202#16 ∧ t.cost = 2 := by decide
/-- T71 -/
theorem test_beq_back_page :
    let t := after (put 0x0200 [0xF0#8, 0xFC#8] { start with p := fl false false false true true false })
    t.pc = 0x01FE#16 ∧ t.cost = 4 := by decide
/-- T72 -/
theorem test_bcc_page :
    let t := after (put 0x02F0 [0x90#8, 0x7F#8] { start with pc := 0x02F0#16 })
    t.pc = 0x0371#16 ∧ t.cost = 4 := by decide
/-- T73 -/
theorem test_bcs :
    let t := after (put 0x0200 [0xB0#8, 0x80#8] { start with p := fl false false false true false true })
    t.pc = 0x0182#16 ∧ t.cost = 4 := by decide
/-- T74 -/
theorem test_bmi_itself :
    let t := after (put 0x0200 [0x30#8, 0xFE#8] { start with p := fl true false false true false false })
    t.pc = 0x0200#16 ∧ t.cost = 3 := by decide
/-- T75 -/
theorem test_bpl_next :
    let t := after (put 0x0200 [0x10#8, 0x00#8] start)
    t.pc = 0x0202#16 ∧ t.cost = 3 := by decide
/-- T76 -/
theorem test_bvc :
    let t := after (put 0x0200 [0x50#8, 0x05#8] start)
    t.pc = 0x0207#16 ∧ t.cost = 3 := by decide
/-- T77 -/
theorem test_bvs_not_taken :
    let t := after (put 0x0200 [0x70#8, 0x05#8] start)
    t.pc = 0x0202#16 ∧ t.cost = 2 := by decide
/-- T79 -/
theorem test_clc :
    let t := after (put 0x0200 [0x18#8] { start with p := fl false false false true false true })
    t.p = fl false false false true false false := by decide
/-- T80 -/
theorem test_sec :
    let t := after (put 0x0200 [0x38#8] start)
    t.p = fl false false false true false true := by decide
/-- T81 -/
theorem test_cli :
    let t := after (put 0x0200 [0x58#8] start)
    t.p = fl false false false false false false := by decide
/-- T82 -/
theorem test_sei :
    let t := after (put 0x0200 [0x78#8] { start with p := fl false false false false false false })
    t.p = fl false false false true false false := by decide
/-- T83 -/
theorem test_cld :
    let t := after (put 0x0200 [0xD8#8] { start with p := fl false false true true false false })
    t.p = fl false false false true false false := by decide
/-- T84 -/
theorem test_sed :
    let t := after (put 0x0200 [0xF8#8] start)
    t.p = fl false false true true false false := by decide
/-- T85 -/
theorem test_clv :
    let t := after (put 0x0200 [0xB8#8] { start with p := fl false true false true false false })
    t.p = fl false false false true false false := by decide
/-- T86 -/
theorem test_nop :
    let t := after (put 0x0200 [0xEA#8] start)
    t.pc = 0x0201#16 ∧ t.p = fl false false false true false false ∧ t.cost = 2 := by decide
/-- T88 -/
theorem test_brk_wraps :
    let t := after (put 0x0200 [0x00#8] (put 0xFFFE [0x00#8, 0x04#8] { start with sp := 0x01#8, p := fl true false true true false false }))
    t.pc = 0x0400#16 ∧ t.sp = 0xFE#8 ∧ t.store.read 0x0100 = 0x02#8 ∧ t.store.read 0x0101 = 0x02#8 ∧ t.store.read 0x01FF = 0xBC#8 ∧ t.p = fl true false true true false false := by decide
/-- T90 -/
theorem test_rti :
    let t := after (put 0x0200 [0x40#8] (put 0x01FB [0xCB#8, 0x34#8, 0x12#8] { start with sp := 0xFA#8 }))
    t.pc = 0x1234#16 ∧ t.sp = 0xFD#8 ∧ t.p = fl true true true false true true ∧ t.cost = 6 := by decide
/-- T93 -/
theorem test_illegal_is_one_byte :
    let t := after (put 0x0200 [0x80#8, 0x10#8] start)
    t.pc = 0x0201#16 ∧ t.cost = 2 := by decide
/-- I1 -/
theorem test_irq_entry :
    let t := after (withLines true false false)
    t.pc = 0x0400#16 ∧ t.sp = 0xFC#8 ∧ t.store.read 0x01FF = 0x02#8 ∧ t.store.read 0x01FD = 0x21#8 ∧ t.p.i = true ∧
      t.cost = 7 := by decide
/-- I2 -/
theorem test_irq_masked : (after (withLines true false true)).pc = 0x0201#16 := by decide
/-- I3, with C = 1 as in I1 -/
theorem test_nmi_entry :
    let t := after (withLines false true true)
    t.pc = 0x0500#16 ∧ t.store.read 0x01FD = 0x25#8 ∧ t.nmiPending = false := by decide
/-- R233: without the lines nothing is taken -/
theorem test_no_lines : (after { withLines true true false with hasIntLines := false }).pc = 0x0201#16 := by decide

/-! ### The address space -/

/-- M1, M2, M5, M6, M7: RAM is written, ROM and unmapped space are not -/
theorem test_bus_write :
    (busRead 0x03FF#16 (busWrite 0x03FF#16 0x22#8 mixed)).value = 0x22#8 ∧
    (busRead 0x0400#16 (busWrite 0x0400#16 0x00#8 mixed)).value = 0xA5#8 ∧
    (busRead 0x0800#16 (busWrite 0x0800#16 0x33#8 mixed)).value = 0xFF#8 ∧
    (busWrite 0x0800#16 0x33#8 mixed).store.read 0x0800 = 0x00#8 := by decide
/-- M9: a device write is one call, the store keeps its byte -/
theorem test_device_write :
    (busWrite 0xF001#16 0x77#8 mixed).deviceLog = [.call 7 0xF001#16 (some 0x77#8)] ∧
    (busWrite 0xF001#16 0x77#8 mixed).store = mixed.store := by decide
/-- M8: a device read is one call, and the byte is the device's -/
theorem test_device_read :
    (busRead 0xF000#16 mixed).after.deviceLog = [.call 7 0xF000#16 none] ∧
    (busRead 0xF000#16 mixed).value = Config.deviceAnswer 7 [] 0xF000#16 := ⟨rfl, rfl⟩
/-- M10: the bypass ignores ROM protection -/
theorem test_bypass :
    nextWith (writeRange 0x0400 [0x12#8] mixed) (fun t => (busRead 0x0400#16 t).value == 0x12#8) = true := by decide
/-- P7 (b): BRK in unmapped space, no fault -/
theorem test_unmapped_brk :
    let t := after { start with pc := 0x0000#16, regions := [{ start := 0, length := 16, kind := .ram }] }
    t.pc = 0xFFFF#16 ∧ t.sp = 0xFA#8 ∧ t.store = [] := by decide
/-- R34: a short initial source, from its offset on, leaves the rest zero -/
theorem test_initial_source :
    nextWith
      (construct (inputOver
        [{ start := 0x10, length := 3, readOnly := true, initialSource := some [0x01#8, 0x02#8, 0x03#8]
           sourceOffset := 1, device := none }] (some 0x10010)))
      (fun t => t.store == [(0x10, 0x02#8), (0x11, 0x03#8)] && t.pc == 0x0010#16) = true := by decide

/-- R260: a reset vector that the host places in a `ROM` region with `write_range` before the engine is built is the one read;
of two writes the later one counts -/
theorem test_vector_placed_before_the_engine :
    nextWith
      (construct { inputOver [plainRegion 0xFF00 0x0100 true] none with
        hostWrites := [⟨0xFFFC, [0x11#8, 0x22#8]⟩, ⟨0xFFFD, [0xFF#8]⟩] })
      (fun t => t.pc == 0xFF11#16 && t.store == [(0xFFFC, 0x11#8), (0xFFFD, 0xFF#8)]) = true := by decide

/-! ### Every statement with hypotheses has a case that meets them -/

theorem witness_ConstructionFollowsItsInputs_default :
    validRegions (resetInput.regions.map descriptorRegion) = true ∧ resetInput.initialPc = none ∧
    (∀ w ∈ resetInput.hostWrites, w.start + w.bytes.length ≤ 65536) := by decide
/-- Host writes up to the last byte of the store meet the premises, one that ends a byte further meets the other clause's. -/
theorem witness_ConstructionFollowsItsInputs_writes :
    let c := { resetInput with hostWrites := [⟨0xFFFC, [0x00#8, 0x02#8, 0x03#8, 0x04#8]⟩] }
    let d := { resetInput with hostWrites := [⟨0xFFFF, [0x00#8, 0x02#8]⟩] }
    validRegions (c.regions.map descriptorRegion) = true ∧ (∀ w ∈ c.hostWrites, w.start + w.bytes.length ≤ 65536) ∧
    validRegions (d.regions.map descriptorRegion) = true ∧ (∃ w ∈ d.hostWrites, 65536 < w.start + w.bytes.length) := by
  decide
theorem witness_ConstructionFollowsItsInputs_pc :
    let c := inputOver [plainRegion 0 0x8000 false, plainRegion 0xFFFF 1 true] (some 0x1FFFF)
    validRegions (c.regions.map descriptorRegion) = true ∧ c.initialPc = some 0x1FFFF ∧
    (∀ w ∈ c.hostWrites, w.start + w.bytes.length ≤ 65536) := by decide
/-- The refusal does happen, and does not happen always. -/
theorem witness_ConstructionRefusesInvalidTables :
    validRegions ((inputOver [plainRegion 0 0 false] none).regions.map descriptorRegion) = false ∧
    validRegions ((inputOver [] none).regions.map descriptorRegion) = true := by decide
/-- First and last byte of a region, the first past it, and a reordering. -/
theorem witness_RegionLookupIsHalfOpen :
    validRegions mixedRegions = true ∧
    regionAt mixedRegions 0x0400#16 = some { start := 0x0400, length := 0x0400, kind := .rom } ∧
    regionAt mixedRegions 0x07FF#16 = some { start := 0x0400, length := 0x0400, kind := .rom } ∧
    regionAt mixedRegions.reverse 0x03FF#16 = regionAt mixedRegions 0x03FF#16 := by decide
theorem witness_RegionLookupIsHalfOpen_unmapped (r : Region) (h : r ∈ mixedRegions) :
    ¬(r.start ≤ (0x0800#16).toNat ∧ (0x0800#16).toNat < r.start + r.length) := by
  simp only [mixedRegions, List.mem_cons, List.not_mem_nil, or_false] at h
  rcases h with rfl | rfl | rfl <;> simp
theorem witness_RegionLookupIsHalfOpen_perm : mixedRegions.Perm mixedRegions.reverse := (List.reverse_perm _).symm
theorem witness_step : ∃ t, step mixed = .next t := ⟨_, rfl⟩
/-- Every kind of region, at the ends of its interval. -/
theorem witness_BusReadFollowsRegionKind :
    kindAt mixed 0x0000#16 = some .ram ∧ kindAt mixed 0x03FF#16 = some .ram ∧ kindAt mixed 0x0400#16 = some .rom ∧
    kindAt mixed 0x07FF#16 = some .rom ∧ kindAt mixed 0x0800#16 = none ∧ kindAt mixed 0xEFFF#16 = none ∧
    kindAt mixed 0xF001#16 = some (.device 7) ∧ kindAt mixed 0xF002#16 = none := by decide
theorem witness_BusWriteFollowsRegionKind : kindAt mixed 0x03FF#16 = some .ram ∧ mixed.store.wf = true := by decide
theorem witness_ProtectedBytesNeverChange :
    (∃ t, step mixed = .next t) ∧ kindAt mixed 0x0400#16 ≠ some .ram ∧ kindAt mixed 0xF000#16 ≠ some .ram :=
  ⟨⟨_, rfl⟩, by decide, by decide⟩
/-- The range that ends at the last byte, and the one past it. -/
theorem witness_BypassReadsAndWritesTheStore :
    0xFFFE + 2 ≤ 65536 ∧ 65536 < 0xFFFF + 2 ∧ 0xFFFE + [0x01#8, 0x02#8].length ≤ 65536 ∧ mixed.store.wf = true ∧
    65536 < 0xFFFF + [0x01#8, 0x02#8].length := ⟨by simp, by simp, by simp, by decide, by simp⟩
/-- An instruction over the end of the address space. -/
theorem witness_StepRunsTheDecodedInstruction :
    let s := put 0xFFFE [0xBD#8, 0xF0#8] (put 0 [0x12#8] { start with pc := 0xFFFE#16 })
    let bytes := [0xBD#8, 0xF0#8, 0x12#8]
    decode bytes = .ok (.ldaAbx 0x12F0#16, []) ∧ dueInterrupt s = none ∧
    (∀ k (h : k < bytes.length), storageAt s (s.pc + BitVec.ofNat 16 k) = true ∧
      s.store.read (s.pc + BitVec.ofNat 16 k).toNat = bytes[k]) := ⟨rfl, by decide, by decide⟩
theorem witness_UnmappedFetchWalksOn :
    dueInterrupt (mixed.setPc 0xFFFF#16) = none ∧ kindAt (mixed.setPc 0xFFFF#16) 0xFFFF#16 = none := by decide
theorem witness_ProgramCounterMovesByTheLength :
    dueInterrupt start = none ∧ (fetchInstr (put 0x0200 [0xA9#8] start)).instr.mnemonic ∉ controlFlow := by decide
theorem witness_ProgramCounterMovesByTheLength_branch :
    let s := put 0x0200 [0xD0#8, 0x10#8] { start with p := fl false false false true true false }
    dueInterrupt s = none ∧
    ∃ off, ∃ f ∈ branchForms off, (fetchInstr s).instr = f.instr ∧ f.cond s.p = false :=
  ⟨by decide, 0x10#8, ⟨0xD0#8, .bne 0x10#8, fun p => !p.z⟩, by simp [branchForms], by decide, by decide⟩
theorem witness_BatchIsRepeatedStep : ∃ t, step start = .next t := ⟨_, rfl⟩
theorem witness_DevicesSeeAccessesInOrder (a : Word) : kindAt allDevice a = some (.device 7) := by
  simpa [kindAt, regionAt, covers, allDevice] using a.isLt
/-- For each flag and each register an instruction that is no writer of it. -/
theorem witness_FlagsChangeOnlyByTheirWriters :
    (∃ t, exec (.bcc 0x10#8) start = .next t) ∧ Mnemonic.BCC ∉ writersNZ ∧ Mnemonic.BCC ∉ writersV ∧
    Mnemonic.BCC ∉ writersD ∧ Mnemonic.BCC ∉ writersI ∧ Mnemonic.BCC ∉ writersC := ⟨⟨_, rfl⟩, by decide⟩
theorem witness_RegistersChangeOnlyByTheirWriters :
    (∃ t, exec .nop start = .next t) ∧ Mnemonic.NOP ∉ writersA ∧ Mnemonic.NOP ∉ writersX ∧ Mnemonic.NOP ∉ writersY ∧
    Mnemonic.NOP ∉ writersS ∧ Mnemonic.NOP ∉ controlFlow := ⟨⟨_, rfl⟩, by decide⟩
theorem witness_OnlyStorersChangeMemory :
    (∃ t, exec (.cmpAbs 0x0300#16) start = .next t) ∧ (Instr.cmpAbs 0x0300#16).mnemonic ∉ storers :=
  ⟨⟨_, rfl⟩, by decide⟩
theorem witness_StepKeepsInvariant : mixed.Inv ∧ ∃ t, step mixed = .next t := ⟨by decide, ⟨_, rfl⟩⟩
theorem witness_InvariantHoldsAfterConstruction : ∃ t, construct (inputOver [] none) = .next t := ⟨_, rfl⟩
/-- Two states that differ in the byte under a device and in an unmapped one. -/
theorem witness_HiddenBytesDoNotMatter :
    let t := put 0x0800 [0x33#8] (put 0xF000 [0x77#8] mixed)
    mixed.store.wf = true ∧ t.store.wf = true ∧ AgreeOnBus mixed t ∧ t ≠ mixed ∧
    (∃ s', step mixed = .next s') ∧ ∃ t', step t = .next t' := by
  refine ⟨by decide, by decide, ⟨rfl, fun a ha => ?_⟩, by decide, ⟨_, rfl⟩, ⟨_, rfl⟩⟩
  have h1 : a.toNat ≠ 0xF000 := fun h => by
    rw [show a = 0xF000#16 from BitVec.eq_of_toNat_eq h] at ha
    exact absurd ha (by decide)
  have h2 : a.toNat ≠ 0x0800 := fun h => by
    rw [show a = 0x0800#16 from BitVec.eq_of_toNat_eq h] at ha
    exact absurd ha (by decide)
  exact (Memory.read_write_ne _ 0x0800 _ 0x33#8 h2).trans (Memory.read_write_ne _ 0xF000 _ 0x77#8 h1)
/-- A plain instruction, one that may cross a page, a branch, an illegal opcode. -/
theorem witness_CostIsTheTableValue :
    (∀ i ∈ [Instr.nop, .ldaAbx 0x12F0#16, .bne 0x10#8, .ill 0x02#8], i.wf = true) ∧
    ∃ t, exec (.ldaAbx 0x12F0#16) start = .next t := ⟨by decide, ⟨_, rfl⟩⟩
theorem witness_DecodeOfEncode :
    ∀ i ∈ [Instr.ldaAbs 0xFFFF#16, .bne 0x80#8, .brk, .ill 0xFF#8], i.wf = true := by decide
theorem witness_EncodeOfDecode : decode [0x6C#8, 0xFF#8, 0x03#8, 0x00#8] = .ok (.jmpInd 0x03FF#16, [0x00#8]) := by rfl
theorem witness_DecodingIsTotal : 0x02#8 ∈ illegalOpcodes ∧ 0xFF#8 ∈ illegalOpcodes ∧ 0xEA#8 ∉ illegalOpcodes := by
  decide
theorem witness_PushAndPullStayInPageOne :
    kindAt { start with sp := 0x00#8 } (stackAddr 0x00#8) = some .ram ∧ start.store.wf = true := by decide
theorem witness_LoadInstructions :
    (ldaForms 0 0).length = 8 ∧ (ldxForms 0 0).length = 5 ∧ (ldyForms 0 0).length = 5 := by decide
theorem witness_StoreInstructions :
    (∃ f, f ∈ staForms 0x10#8 0 ∧ f.instr = .staZp 0x10#8) ∧ (∃ f, f ∈ stxForms 0x10#8 0 ∧ f.instr = .stxZp 0x10#8) ∧
    ∃ f, f ∈ styForms 0x10#8 0 ∧ f.instr = .styZp 0x10#8 :=
  ⟨⟨_, List.mem_cons_self, rfl⟩, ⟨_, List.mem_cons_self, rfl⟩, ⟨_, List.mem_cons_self, rfl⟩⟩
/-- The clauses of `StoresByte`, for every statement that uses it: a store to `RAM` and a store elsewhere. -/
theorem witness_StoresByte :
    mixed.store.wf = true ∧ kindAt mixed (resolve (.abs 0x03FF#16) mixed).ea = some .ram ∧
    kindAt mixed (resolve (.abs 0x0400#16) mixed).ea ≠ some .ram ∧
    kindAt mixed (stackAddr mixed.sp) = some .ram ∧ kindAt allDevice (stackAddr allDevice.sp) ≠ some .ram := by decide
theorem witness_LogicInstructions :
    (∃ f, f ∈ andForms 0x10#8 0 ∧ f.instr = .andImm 0x10#8) ∧ (∃ f, f ∈ oraForms 0x10#8 0 ∧ f.instr = .oraImm 0x10#8) ∧
    ∃ f, f ∈ eorForms 0x10#8 0 ∧ f.instr = .eorImm 0x10#8 :=
  ⟨⟨_, List.mem_cons_self, rfl⟩, ⟨_, List.mem_cons_self, rfl⟩, ⟨_, List.mem_cons_self, rfl⟩⟩
theorem witness_binary_and_decimal_mode :
    start.p.d = false ∧ ({ start with p := fl false false true true false true }).p.d = true ∧
    (adcForms 0 0).length = 8 ∧ (sbcForms 0 0).length = 8 := by decide
theorem witness_DecimalModeIsCorrectOnBcd : 99 < 100 ∧ 0 < 100 ∧ (fl false false true true false true).d = true := by
  decide
theorem witness_CompareInstructions :
    (∃ f, f ∈ cmpForms 0x10#8 0 ∧ f.instr = .cmpImm 0x10#8) ∧ (∃ f, f ∈ cpxForms 0x10#8 0 ∧ f.instr = .cpxImm 0x10#8) ∧
    ∃ f, f ∈ cpyForms 0x10#8 0 ∧ f.instr = .cpyImm 0x10#8 :=
  ⟨⟨_, List.mem_cons_self, rfl⟩, ⟨_, List.mem_cons_self, rfl⟩, ⟨_, List.mem_cons_self, rfl⟩⟩
theorem witness_forms : (rmwForms 0 0).length = 24 ∧ accForms.length = 4 ∧ (bitForms 0 0).length = 2 := by decide
/-- The stack at the top and at the bottom of page 1. -/
theorem witness_JumpToSubroutine :
    start.store.wf = true ∧ kindAt { start with sp := 0x00#8 } (stackAddr 0x00#8) = some .ram ∧
    kindAt { start with sp := 0x00#8 } (stackAddr (0x00#8 - 1#8)) = some .ram := by decide
theorem witness_SubroutineRoundTrip : start.store.wf = true ∧ ∀ n : Byte, kindAt start (stackAddr n) = some .ram := by
  refine ⟨by decide, fun n => ?_⟩
  simpa [kindAt, regionAt, covers, start, State.reset] using (stackAddr n).isLt
theorem witness_BranchInstructions :
    (∃ f, f ∈ branchForms 0x80#8 ∧ f.cond start.p = true) ∧ ∃ f, f ∈ branchForms 0x80#8 ∧ f.cond start.p = false :=
  ⟨⟨_, List.mem_cons_self, rfl⟩, ⟨_, List.mem_cons_of_mem _ List.mem_cons_self, rfl⟩⟩
theorem witness_NopAndIllegalOpcodes : 0x80#8 ∈ illegalOpcodes ∧ 0x04#8 ∈ illegalOpcodes := by decide
theorem witness_TrapFrameInMemory :
    start.store.wf = true ∧ ∀ n ∈ [0x01#8, 0x01#8 - 1#8, 0x01#8 - 2#8], kindAt start (stackAddr n) = some .ram := by decide
theorem witness_TrapRoundTrip : start.store.wf = true ∧ ∀ n : Byte, kindAt start (stackAddr n) = some .ram :=
  witness_SubroutineRoundTrip
/-- One state for each clause. -/
theorem witness_InterruptEntry :
    let nmi := withLines true true true
    let irq := withLines true false false
    let masked := withLines true false true
    let quiet := withLines false false false
    (nmi.hasIntLines = true ∧ nmi.nmiPending = true) ∧
    (irq.hasIntLines = true ∧ irq.nmiPending = false ∧ irq.irqLine = true ∧ irq.p.i = false) ∧
    (masked.hasIntLines = true ∧ masked.nmiPending = false ∧ masked.p.i = true) ∧
    (quiet.hasIntLines = true ∧ quiet.nmiPending = false ∧ quiet.irqLine = false) ∧
    start.hasIntLines = false := by decide

end Sys2Proof.Tests
end

/-! PROOF. The state's own rules (spec 10_state.md): what `SetNZ` and the flag functions leave alone, the status byte bit by
bit, and which mnemonic may write which flag and register. -/

namespace Sys2Proof.Machine

/-! ### The status byte, bit by bit -/

/-- One flag's bit: set at its own position only. -/
theorem flagBit_getLsbD (b : Bool) (k j : Nat) (hj : j < 8) : (flagBit b k).getLsbD j = (decide (j = k) && b) := by
  by_cases hk : j < k
  · simp [flagBit, hk, hk.ne]
  · by_cases he : j = k
    · subst he; simp [flagBit, hj]
    · have : j - k ≠ 0 := by omega
      simp [flagBit, he, this]

/-- 10_state.md R19: N V 1 b D I Z C, bit 7 first. -/
theorem pack_getLsbD (p : Flags) (b : Bool) (j : Nat) (hj : j < 8) :
    (p.pack b).getLsbD j = [p.c, p.z, p.i, p.d, b, true, p.v, p.n][j] := by
  simp only [Flags.pack, BitVec.getLsbD_or, flagBit_getLsbD _ _ j hj]
  interval_cases j <;> simp

/-- The packed byte as a number; its seven free bits are all the cases there are. -/
theorem pack_toNat (p : Flags) (b : Bool) :
    (p.pack b).toNat =
      128 * p.n.toNat + 64 * p.v.toNat + 32 + 16 * b.toNat + 8 * p.d.toNat + 4 * p.i.toNat + 2 * p.z.toNat + p.c.toNat := by
  obtain ⟨n, v, d, i, z, c⟩ := p
  revert n v d i z c b
  decide

@[simp] theorem unpack_pack (p : Flags) (b : Bool) : Flags.unpack (p.pack b) = p :=
  have bit := pack_getLsbD p b
  Flags.ext (bit 7 (by decide)) (bit 6 (by decide)) (bit 3 (by decide)) (bit 2 (by decide)) (bit 1 (by decide))
    (bit 0 (by decide))

/-- Packing what was unpacked from `v` keeps the six flag bits of `v`, sets bit 5 and puts `b` in bit 4. -/
theorem pack_unpack_getLsbD (v : Byte) (b : Bool) (j : Nat) (hj : j < 8) :
    ((Flags.unpack v).pack b).getLsbD j = if j = 4 then b else decide (j = 5) || v.getLsbD j := by
  rw [pack_getLsbD _ _ j hj]
  interval_cases j <;> simp [Flags.unpack]

theorem pack_unpack_true (v : Byte) : (Flags.unpack v).pack true = v ||| 0x30#8 := by
  refine BitVec.eq_of_getLsbD_eq fun j hj => ?_
  rw [pack_unpack_getLsbD v _ j hj, BitVec.getLsbD_or]
  interval_cases j <;> simp

theorem pack_unpack_false (v : Byte) : (Flags.unpack v).pack false = (v ||| 0x20#8) &&& 0xEF#8 := by
  refine BitVec.eq_of_getLsbD_eq fun j hj => ?_
  rw [pack_unpack_getLsbD v _ j hj, BitVec.getLsbD_and, BitVec.getLsbD_or]
  interval_cases j <;> simp

theorem setNZ_eq (p : Flags) (v : Byte) :
    p.setNZ v = { p with n := decide (128 ≤ v.toNat), z := decide (v.toNat = 0) } := by
  have hz : (v == 0#8) = decide (v.toNat = 0) := by simp [BitVec.toNat_eq, beq_eq_decide]
  simp [Flags.setNZ, BitVec.msb_eq_decide, hz]

/-- Settles O31: SetNZ as numbers, the packed byte as a sum, and both round trips bit by bit. -/
theorem statusBytePacksAndUnpacks : Obligations.StatusBytePacksAndUnpacks := fun p b v =>
  ⟨setNZ_eq p v, pack_toNat p b, unpack_pack p b, pack_unpack_true v, pack_unpack_false v⟩

/-! ### What the flag functions leave alone -/

section

variable (p : Flags) (a m v : Byte)

@[simp] theorem setNZ_v : (p.setNZ v).v = p.v := rfl
@[simp] theorem setNZ_d : (p.setNZ v).d = p.d := rfl
@[simp] theorem setNZ_i : (p.setNZ v).i = p.i := rfl
@[simp] theorem setNZ_c : (p.setNZ v).c = p.c := rfl

/-- ADC in both modes keeps D and I (10_state.md R17). -/
theorem adcFlags_keeps : (adcFlags a m p).flags.d = p.d ∧ (adcFlags a m p).flags.i = p.i := by
  unfold adcFlags; split <;> exact ⟨rfl, rfl⟩

/-- SBC in both modes keeps D and I (10_state.md R17). -/
theorem sbcFlags_keeps : (sbcFlags a m p).flags.d = p.d ∧ (sbcFlags a m p).flags.i = p.i := by
  unfold sbcFlags; split <;> exact ⟨rfl, rfl⟩

theorem compareFlags_keeps :
    (compareFlags a m p).v = p.v ∧ (compareFlags a m p).d = p.d ∧ (compareFlags a m p).i = p.i := ⟨rfl, rfl, rfl⟩

theorem bitFlags_keeps : (bitFlags a m p).d = p.d ∧ (bitFlags a m p).i = p.i ∧ (bitFlags a m p).c = p.c :=
  ⟨rfl, rfl, rfl⟩

end

/-! ### What a read-modify-write leaves alone -/

/-- In memory, a read-modify-write keeps the accumulator. -/
theorem modifyOperand_a (t : Target) (ht : t ≠ .acc) (f : Byte → Flags → Result8) (s : State) :
    (modifyOperand t f s).a = s.a := by
  cases t with
  | acc => exact absurd rfl ht
  | zp | zpx | abs | abx => simp [modifyOperand]

/-! ### What an instruction of each mnemonic does -/

/-- An instruction of mnemonic `m` takes `s` to `t`: one shared meaning for each mnemonic, over its operand forms. -/
inductive Runs (s : State) : Mnemonic → State → Prop where
  | adc (o : Source) : Runs s .ADC (addWithCarry o s)
  | sbc (o : Source) : Runs s .SBC (subtractWithBorrow o s)
  | cmp (o : Source) : Runs s .CMP (compareA o s)
  | cpx (o : Source) : Runs s .CPX (compareX o s)
  | cpy (o : Source) : Runs s .CPY (compareY o s)
  | and (o : Source) : Runs s .AND (andA o s)
  | ora (o : Source) : Runs s .ORA (orA o s)
  | eor (o : Source) : Runs s .EOR (eorA o s)
  | bit (o : Source) : Runs s .BIT (bitTest o s)
  | asl (t : Target) : Runs s .ASL (shiftLeft t s)
  | lsr (t : Target) : Runs s .LSR (shiftRight t s)
  | rol (t : Target) : Runs s .ROL (rotateLeft t s)
  | ror (t : Target) : Runs s .ROR (rotateRight t s)
  | inc (t : Target) (ht : t ≠ .acc) : Runs s .INC (increment t s)
  | dec (t : Target) (ht : t ≠ .acc) : Runs s .DEC (decrement t s)
  | inx : Runs s .INX (((s.setX (s.x + 1#8)).setP (s.p.setNZ (s.x + 1#8))).setCost 2)
  | iny : Runs s .INY (((s.setY (s.y + 1#8)).setP (s.p.setNZ (s.y + 1#8))).setCost 2)
  | dex : Runs s .DEX (((s.setX (s.x - 1#8)).setP (s.p.setNZ (s.x - 1#8))).setCost 2)
  | dey : Runs s .DEY (((s.setY (s.y - 1#8)).setP (s.p.setNZ (s.y - 1#8))).setCost 2)
  | lda (o : Source) : Runs s .LDA (loadA o s)
  | ldx (o : Source) : Runs s .LDX (loadX o s)
  | ldy (o : Source) : Runs s .LDY (loadY o s)
  | sta (m : MemOperand) : Runs s .STA (storeOperand m s.a s)
  | stx (m : MemOperand) : Runs s .STX (storeOperand m s.x s)
  | sty (m : MemOperand) : Runs s .STY (storeOperand m s.y s)
  | tax : Runs s .TAX (((s.setX s.a).setP (s.p.setNZ s.a)).setCost 2)
  | tay : Runs s .TAY (((s.setY s.a).setP (s.p.setNZ s.a)).setCost 2)
  | txa : Runs s .TXA (((s.setA s.x).setP (s.p.setNZ s.x)).setCost 2)
  | tya : Runs s .TYA (((s.setA s.y).setP (s.p.setNZ s.y)).setCost 2)
  | tsx : Runs s .TSX (((s.setX s.sp).setP (s.p.setNZ s.sp)).setCost 2)
  | txs : Runs s .TXS ((s.setSp s.x).setCost 2)
  | pha : Runs s .PHA ((push s.a s).setCost 3)
  | php : Runs s .PHP ((push (s.p.pack true) s).setCost 3)
  | pla : Runs s .PLA ((pullA s).setCost 4)
  | plp : Runs s .PLP ((pullP s).setCost 4)
  | jmpAbs (w : Word) : Runs s .JMP ((s.setPc w).setCost 3)
  | jmpInd (w : Word) : Runs s .JMP (jumpIndirect w s)
  | jsr (w : Word) : Runs s .JSR (jumpSubroutine w s)
  | rts : Runs s .RTS (returnSubroutine s)
  | bcc (off : Byte) : Runs s .BCC (branch (!s.p.c) off s)
  | bcs (off : Byte) : Runs s .BCS (branch s.p.c off s)
  | beq (off : Byte) : Runs s .BEQ (branch s.p.z off s)
  | bne (off : Byte) : Runs s .BNE (branch (!s.p.z) off s)
  | bmi (off : Byte) : Runs s .BMI (branch s.p.n off s)
  | bpl (off : Byte) : Runs s .BPL (branch (!s.p.n) off s)
  | bvc (off : Byte) : Runs s .BVC (branch (!s.p.v) off s)
  | bvs (off : Byte) : Runs s .BVS (branch s.p.v off s)
  | clc : Runs s .CLC ((s.setP { s.p with c := false }).setCost 2)
  | sec : Runs s .SEC ((s.setP { s.p with c := true }).setCost 2)
  | cli : Runs s .CLI ((s.setP { s.p with i := false }).setCost 2)
  | sei : Runs s .SEI ((s.setP { s.p with i := true }).setCost 2)
  | cld : Runs s .CLD ((s.setP { s.p with d := false }).setCost 2)
  | sed : Runs s .SED ((s.setP { s.p with d := true }).setCost 2)
  | clv : Runs s .CLV ((s.setP { s.p with v := false }).setCost 2)
  | nop : Runs s .NOP (s.setCost 2)
  | ill : Runs s .ILL (s.setCost 2)
  | brk : Runs s .BRK (takeTrap (s.pc + 1#16) true irqVector s)
  | rti : Runs s .RTI (returnFromTrap s)

/-- Whatever its operand form, an instruction runs the meaning of its mnemonic. -/
theorem runs_of_exec {i : Instr} {s t : State} (h : exec i s = .next t) : Runs s i.mnemonic t := by
  cases i <;> cases h <;> constructor <;> simp

/-! ### Flags -/

/-- The flags go from `p` to `q` by an instruction of mnemonic `m`: only the writers that 10_state.md R17 lists change one. -/
def FlagFrame (m : Mnemonic) (p q : Flags) : Prop :=
  (m ∉ writersNZ → q.n = p.n ∧ q.z = p.z) ∧ (m ∉ writersV → q.v = p.v) ∧ (m ∉ writersD → q.d = p.d) ∧
    (m ∉ writersI → q.i = p.i) ∧ (m ∉ writersC → q.c = p.c)

theorem FlagFrame.refl (m : Mnemonic) (p : Flags) : FlagFrame m p p := by simp [FlagFrame]

/-- SetNZ alone. -/
theorem FlagFrame.setNZ {m : Mnemonic} (hm : m ∈ writersNZ) (p : Flags) (v : Byte) : FlagFrame m p (p.setNZ v) := by
  simp [FlagFrame, hm]

/-- A compare, a shift or a rotate: N, Z and C. -/
theorem FlagFrame.of_keeps_vdi {m : Mnemonic} (hnz : m ∈ writersNZ) (hc : m ∈ writersC) {p q : Flags}
    (h : q.v = p.v ∧ q.d = p.d ∧ q.i = p.i) : FlagFrame m p q := by
  simp [FlagFrame, hnz, hc, h]

/-- ADC and SBC: N, Z, V and C. -/
theorem FlagFrame.of_keeps_di {m : Mnemonic} (hnz : m ∈ writersNZ) (hv : m ∈ writersV) (hc : m ∈ writersC) {p q : Flags}
    (h : q.d = p.d ∧ q.i = p.i) : FlagFrame m p q := by
  simp [FlagFrame, hnz, hv, hc, h]

/-- A read-modify-write that shifts or rotates. -/
theorem FlagFrame.modify_vdi {m : Mnemonic} (hnz : m ∈ writersNZ) (hc : m ∈ writersC) (f : Byte → Flags → Result8)
    (hf : ∀ v p, (f v p).flags.v = p.v ∧ (f v p).flags.d = p.d ∧ (f v p).flags.i = p.i) (t : Target) (s : State) :
    FlagFrame m s.p (modifyOperand t f s).p := by
  obtain ⟨v, hv⟩ := modifyOperand_p t f s
  exact .of_keeps_vdi hnz hc (hv ▸ hf v s.p)

/-- INC and DEC. -/
theorem FlagFrame.modify_setNZ {m : Mnemonic} (hnz : m ∈ writersNZ) (f : Byte → Flags → Result8)
    (hf : ∀ v p, (f v p).flags = p.setNZ (f v p).value) (t : Target) (s : State) :
    FlagFrame m s.p (modifyOperand t f s).p := by
  obtain ⟨v, hv⟩ := modifyOperand_p t f s
  rw [hv, hf]
  exact .setNZ hnz _ _

/-- The flags' frame, mnemonic by mnemonic (10_state.md R17). -/
theorem Runs.flagFrame {s t : State} {m : Mnemonic} (h : Runs s m t) : FlagFrame m s.p t.p := by
  cases h with
  | lda | ldx | ldy | and | ora | eor | pla =>
    simp only [loadA_eq, loadX_eq, loadY_eq, andA, orA, eorA, logicA_eq, pullA_eq, setCost_p]
    exact .setNZ (by decide) _ _
  | tax | tay | txa | tya | tsx | inx | iny | dex | dey => exact .setNZ (by decide) _ _
  | adc o => rw [addWithCarry, accumulate_eq]; exact .of_keeps_di (by decide) (by decide) (by decide) (adcFlags_keeps _ _ _)
  | sbc o =>
    rw [subtractWithBorrow, accumulate_eq]
    exact .of_keeps_di (by decide) (by decide) (by decide) (sbcFlags_keeps _ _ _)
  | cmp | cpx | cpy =>
    simp only [compareA_eq, compareX_eq, compareY_eq]
    exact .of_keeps_vdi (by decide) (by decide) (compareFlags_keeps _ _ _)
  | asl | lsr | rol | ror => exact .modify_vdi (by decide) (by decide) _ (fun _ _ => ⟨rfl, rfl, rfl⟩) _ _
  | inc | dec => exact .modify_setNZ (by decide) _ (fun _ _ => rfl) _ _
  | bit => simp [FlagFrame, bitTest_eq, bitFlags_keeps, writersNZ, writersV]
  | sta | stx | sty | txs | pha | php | jmpAbs | jmpInd | jsr | rts | nop | ill =>
    simp only [storeOperand_p, setCost_p, setSp_p, push_p, setPc_p, jumpIndirect_eq, jumpSubroutine_eq,
      returnSubroutine_eq]
    exact .refl _ _
  | bcc | bcs | beq | bne | bmi | bpl | bvc | bvs => rw [branch_p]; exact .refl _ _
  | clc | sec => simp [FlagFrame, writersC]
  | cli | sei => simp [FlagFrame, writersI]
  | cld | sed => simp [FlagFrame, writersD]
  | clv => simp [FlagFrame, writersV]
  | brk => simp [FlagFrame, writersI]
  | plp | rti => simp [FlagFrame, writersNZ, writersV, writersD, writersI, writersC]

/-- Settles O16: every instruction runs the meaning of its mnemonic, whose flags stay in the mnemonic's frame. -/
theorem flagsChangeOnlyByTheirWriters : Obligations.FlagsChangeOnlyByTheirWriters := fun _ _ _ h =>
  (runs_of_exec h).flagFrame

/-! ### Registers -/

/-- The registers go from those of `s` to those of `t` by an instruction of mnemonic `m`: only the listed writers change
one (10_state.md R11 to R13, R15). -/
def RegisterFrame (m : Mnemonic) (s t : State) : Prop :=
  (m ∉ writersA → t.a = s.a) ∧ (m ∉ writersX → t.x = s.x) ∧ (m ∉ writersY → t.y = s.y) ∧ (m ∉ writersS → t.sp = s.sp) ∧
    (m ∉ controlFlow → t.pc = s.pc)

/-- The registers' frame, mnemonic by mnemonic. -/
theorem Runs.registerFrame {s t : State} {m : Mnemonic} (h : Runs s m t) : RegisterFrame m s t := by
  cases h with
  | adc | sbc | and | ora | eor | lda | txa | tya =>
    simp [RegisterFrame, addWithCarry, subtractWithBorrow, accumulate_eq, andA, orA, eorA, logicA_eq, loadA_eq, writersA]
  | asl | lsr | rol | ror => simp [RegisterFrame, shiftLeft, shiftRight, rotateLeft, rotateRight, writersA]
  | inc t ht | dec t ht => simp [RegisterFrame, increment, decrement, modifyOperand_a t ht]
  | ldx | tax | tsx | inx | dex => simp [RegisterFrame, loadX_eq, writersX]
  | ldy | tay | iny | dey => simp [RegisterFrame, loadY_eq, writersY]
  | pla => simp [RegisterFrame, pullA_eq, writersA, writersS]
  | txs | pha | php | plp => simp [RegisterFrame, pullP_eq, writersS]
  | jsr | rts | brk | rti => simp [RegisterFrame, jumpSubroutine_eq, returnSubroutine_eq, writersS, controlFlow]
  | jmpAbs | jmpInd | bcc | bcs | beq | bne | bmi | bpl | bvc | bvs =>
    simp [RegisterFrame, jumpIndirect_eq, controlFlow]
  | cmp | cpx | cpy | bit | sta | stx | sty | clc | sec | cli | sei | cld | sed | clv | nop | ill =>
    simp [RegisterFrame, compareA_eq, compareX_eq, compareY_eq, bitTest_eq]

/-- Settles O17: every instruction runs the meaning of its mnemonic, whose registers stay in the mnemonic's frame. -/
theorem registersChangeOnlyByTheirWriters : Obligations.RegistersChangeOnlyByTheirWriters := fun _ _ _ h =>
  (runs_of_exec h).registerFrame

end Sys2Proof.Machine

/-! PROOF. The address space (spec 20_memory.md): the region table and its construction, one bus access by the kind of its
region, which bytes no step changes, and which bytes no step can learn. -/

namespace Sys2Proof.Machine

/-! ### What a step can do -/

/-- A step is an interrupt entry or the execution of the instruction fetched (40_step_and_addressing.md R80). -/
theorem step_cases {s t : State} (h : step s = .next t) :
    (∃ k, dueInterrupt s = some k ∧ t = enterInterrupt k s) ∨
      (dueInterrupt s = none ∧ exec (fetchInstr s).instr (fetchInstr s).after = .next t) := by
  cases hd : dueInterrupt s with
  | some k => rw [step_of_interrupt s k hd] at h; cases h; exact .inl ⟨k, rfl, rfl⟩
  | none => rw [step_of_no_interrupt s hd] at h; exact .inr ⟨rfl, h⟩

/-! ### The region table -/

theorem region_disjoint_iff_le (r t : Region) :
    r.disjoint t = true ↔ r.start + r.length ≤ t.start ∨ t.start + t.length ≤ r.start := by
  simp [Region.disjoint]

theorem region_disjoint_symm {r t : Region} (h : r.disjoint t = true) : t.disjoint r = true := by
  rw [region_disjoint_iff_le] at h ⊢
  exact h.symm

theorem inSpace_iff (r : Region) : r.inSpace = true ↔ 1 ≤ r.length ∧ r.start + r.length ≤ 65536 := by
  simp [Region.inSpace]

theorem covers_iff (r : Region) (a : Nat) : covers r a = true ↔ r.start ≤ a ∧ a < r.start + r.length := by
  simp [covers]

/-- Regions that are not empty are disjoint when no address lies in both. -/
theorem region_disjoint_iff {r t : Region} (hr : 1 ≤ r.length) (ht : 1 ≤ t.length) :
    r.disjoint t = true ↔
      ∀ a, ¬((r.start ≤ a ∧ a < r.start + r.length) ∧ (t.start ≤ a ∧ a < t.start + t.length)) := by
  rw [region_disjoint_iff_le]
  constructor
  · intro h a
    omega
  · intro h
    have := h (max r.start t.start)
    omega

theorem not_disjoint_of_covers {r t : Region} {a : Nat} (hr : covers r a = true) (ht : covers t a = true) :
    ¬r.disjoint t = true := by
  rw [covers_iff] at hr ht
  rw [region_disjoint_iff_le]
  omega

/-- A valid table, region by region and pair by pair (20_memory.md R33). -/
theorem validRegions_iff (rs : List Region) :
    validRegions rs = true ↔ (∀ r ∈ rs, r.inSpace = true) ∧ rs.Pairwise fun r t => r.disjoint t = true := by
  induction rs with
  | nil => simp [validRegions]
  | cons r rs ih =>
    simp only [validRegions, Bool.and_eq_true, ih, List.all_eq_true, List.forall_mem_cons, List.pairwise_cons]
    tauto

/-- The order of the list has no effect on validity. -/
theorem validRegions_perm {rs rs' : List Region} (hp : rs.Perm rs') (h : validRegions rs = true) :
    validRegions rs' = true := by
  rw [validRegions_iff] at h ⊢
  obtain ⟨hspace, hpair⟩ := h
  exact ⟨fun r hr => hspace r (hp.mem_iff.2 hr), (hp.pairwise_iff region_disjoint_symm).1 hpair⟩

/-- A region that is found is one of the table's and covers the address, in any table. -/
theorem mem_and_covers_of_regionAt {rs : List Region} {a : Word} {r : Region} (h : regionAt rs a = some r) :
    r ∈ rs ∧ covers r a.toNat = true :=
  ⟨List.mem_of_find?_eq_some h, List.find?_some (p := fun r => covers r a.toNat) h⟩

/-- In a valid table a region is found for exactly the addresses of its interval (20_memory.md R35). -/
theorem regionAt_eq_some_iff {rs : List Region} (h : validRegions rs = true) (a : Word) (r : Region) :
    regionAt rs a = some r ↔ r ∈ rs ∧ covers r a.toNat = true := by
  obtain ⟨-, hpair⟩ := (validRegions_iff rs).1 h
  constructor
  · exact mem_and_covers_of_regionAt
  · rintro ⟨hmem, hcov⟩
    obtain ⟨t, ht⟩ : ∃ t, regionAt rs a = some t :=
      Option.isSome_iff_exists.1 (List.find?_isSome.2 ⟨r, hmem, hcov⟩)
    obtain ⟨htmem, htcov⟩ := mem_and_covers_of_regionAt ht
    have hsymm : Std.Symm fun r t : Region => r.disjoint t = true := ⟨fun _ _ => region_disjoint_symm⟩
    have htr : t = r := by_contra fun hne =>
      not_disjoint_of_covers htcov hcov (hpair.forall htmem hmem hne)
    rw [ht, htr]

/-- An address in no region's interval is unmapped, in any table. -/
theorem regionAt_eq_none {rs : List Region} {a : Word}
    (h : ∀ r ∈ rs, ¬(r.start ≤ a.toNat ∧ a.toNat < r.start + r.length)) : regionAt rs a = none :=
  List.find?_eq_none.2 fun r hr => by rw [covers_iff]; exact h r hr

/-- The order of the list has no effect on the lookup. -/
theorem regionAt_perm {rs rs' : List Region} (h : validRegions rs = true) (hp : rs.Perm rs') (a : Word) :
    regionAt rs' a = regionAt rs a := by
  refine Option.ext fun r => ?_
  rw [regionAt_eq_some_iff h, regionAt_eq_some_iff (validRegions_perm hp h), hp.mem_iff]

/-- No step changes the table. -/
theorem step_regions {s t : State} (h : step s = .next t) : t.regions = s.regions := by
  rcases step_cases h with ⟨k, -, rfl⟩ | ⟨-, hx⟩
  · cases k with
    | nmi | irq => simp [enterInterrupt]
  · rw [(exec_configuration _ _ _ hx).1, fetchInstr_after_regions]

/-- Settles O4: in a valid table the lookup finds the members that cover the address, of which there is one at most. -/
theorem regionLookupIsHalfOpen : Obligations.RegionLookupIsHalfOpen :=
  ⟨fun _ h =>
    ⟨fun r hr a hlo hhi => (regionAt_eq_some_iff h a r).2 ⟨hr, (covers_iff r a.toNat).2 ⟨hlo, hhi⟩⟩,
      fun _ hno => regionAt_eq_none hno, fun _ hp a => regionAt_perm h hp a⟩,
    fun _ _ => step_regions⟩

/-! ### Construction -/

/-- Construction is refused for its table when the table is invalid, and for nothing else. -/
theorem construct_refused_iff (c : ConstructionInput) :
    construct c = .refused .invalidRegionTable ↔ ¬validRegions (c.regions.map descriptorRegion) = true := by
  unfold construct
  split
  · next hv =>
    rcases placeBytes_cases c.hostWrites (withAddressSpace c) with h | h <;> simp [h, hv]
  · next hv => simp [hv]

/-- What construction checks of the descriptors' regions, in the descriptors' numbers (20_memory.md R33). -/
theorem validRegions_descriptors_iff (ds : List RegionDescriptor) :
    validRegions (ds.map descriptorRegion) = true ↔
      (∀ r ∈ ds, 1 ≤ r.length ∧ r.start + r.length ≤ 65536) ∧
        ds.Pairwise fun r t => ∀ a : Nat,
          ¬((r.start ≤ a ∧ a < r.start + r.length) ∧ (t.start ≤ a ∧ a < t.start + t.length)) := by
  rw [validRegions_iff, List.forall_mem_map, List.pairwise_map]
  simp only [inSpace_iff]
  refine and_congr_right fun hs => List.Pairwise.iff_of_mem fun {r t} hr ht => ?_
  exact region_disjoint_iff (hs r hr).1 (hs t ht).1

/-- Settles O3: construction refuses exactly the tables that its check refuses. -/
theorem constructionRefusesInvalidTables : Obligations.ConstructionRefusesInvalidTables := fun c =>
  (construct_refused_iff c).trans (not_congr (validRegions_descriptors_iff c.regions))

/-- The initial sources stay inside their regions, so they keep the canonical form (20_memory.md R34). -/
theorem initialStore_wf (ds : List RegionDescriptor) (m : Memory)
    (hs : ∀ r ∈ ds, r.start + r.length ≤ Config.spaceSize) (hm : m.wf = true) : (initialStore ds m).wf = true := by
  induction ds generalizing m with
  | nil => exact hm
  | cons r ds ih =>
    rw [List.forall_mem_cons] at hs
    have hlen : (initialBytes r).length ≤ r.length := by
      unfold initialBytes; split <;> simp
    exact ih _ hs.2 (Memory.writeList_wf m r.start _ (by omega) hm)

/-- The Address Space built from a valid table. -/
theorem withAddressSpace_inv (c : ConstructionInput) (h : validRegions (c.regions.map descriptorRegion) = true) :
    (withAddressSpace c).Inv := by
  obtain ⟨hspace, -⟩ := (validRegions_descriptors_iff c.regions).1 h
  exact ⟨initialStore_wf c.regions [] (fun r hr => (hspace r hr).2) rfl, h⟩

theorem placeBytes_regions {ws : List BypassWrite} {s t : State} (h : placeBytes ws s = .next t) :
    t.regions = s.regions := by
  rcases placeBytes_cases ws s with hp | hp <;> rw [hp] at h <;> cases h
  rfl

theorem setInitialPc_inv {s : State} (pc : Option Nat) (h : s.Inv) : (setInitialPc pc s).Inv := by
  cases pc with
  | none => simpa [State.Inv, setInitialPc] using h
  | some n => exact h

/-- Settles O20: the table is checked, the Address Space has the invariant, and neither the host's writes nor the initial
`pc` break it. -/
theorem invariantHoldsAfterConstruction : Obligations.InvariantHoldsAfterConstruction := by
  refine ⟨by decide, fun c t h => ?_⟩
  unfold construct at h
  split at h
  · next hv =>
    obtain ⟨u, hu, hpc⟩ := andThen_eq_next h
    cases hpc
    obtain ⟨hstore, hregions⟩ := withAddressSpace_inv c hv
    exact setInitialPc_inv _ ⟨placeBytes_wf _ _ _ hu hstore, placeBytes_regions hu ▸ hregions⟩
  · cases h

/-! ### One bus access -/

/-- Settles O5: one case for each kind of region. -/
theorem busReadFollowsRegionKind : Obligations.BusReadFollowsRegionKind := fun a s =>
  ⟨busRead_unmapped a s, fun id => busRead_device a id s, busRead_storage a s⟩

theorem busWrite_unmapped (a : Word) (v : Byte) (s : State) (h : kindAt s a = none) : busWrite a v s = s := by
  simp [busWrite, h]

theorem busWrite_rom (a : Word) (v : Byte) (s : State) (h : kindAt s a = some .rom) : busWrite a v s = s := by
  simp [busWrite, h]

theorem busWrite_ram (a : Word) (v : Byte) (s : State) (h : kindAt s a = some .ram) :
    busWrite a v s = s.setStore (s.store.write a.toNat v) := by
  simp [busWrite, h]

theorem busWrite_device (a : Word) (v : Byte) (id : Nat) (s : State) (h : kindAt s a = some (.device id)) :
    busWrite a v s = s.setDeviceLog (.call id a (some v) :: s.deviceLog) := by
  simp [busWrite, h, callDevice]

/-- Settles O6: one case for each kind of region; in `RAM` the byte is read back after a write to a canonical store. -/
theorem busWriteFollowsRegionKind : Obligations.BusWriteFollowsRegionKind := by
  intro a v s
  refine ⟨busWrite_unmapped a v s, fun id => busWrite_device a v id s, busWrite_rom a v s, fun h hs => ?_⟩
  rw [busWrite_ram a v s h]
  exact ⟨rfl, fun b => Memory.read_write s.store a.toNat b v hs⟩

/-! ### Bytes outside `RAM` -/

/-- A bus write keeps every byte outside `RAM` (20_memory.md R37). -/
theorem busWrite_read_protected {s : State} {a : Word} (h : kindAt s a ≠ some .ram) (b : Word) (v : Byte) :
    (busWrite b v s).store.read a.toNat = s.store.read a.toNat := by
  by_cases hab : a.toNat = b.toNat
  · rw [BitVec.eq_of_toNat_eq hab] at h
    rw [busWrite_store, if_neg h]
  · exact busWrite_read_ne b v s a.toNat hab

theorem push_read_protected {s : State} {a : Word} (h : kindAt s a ≠ some .ram) (v : Byte) :
    (push v s).store.read a.toNat = s.store.read a.toNat :=
  busWrite_read_protected h _ v

theorem pushWord_read_protected {s : State} {a : Word} (h : kindAt s a ≠ some .ram) (w : Word) :
    (pushWord w s).store.read a.toNat = s.store.read a.toNat := by
  rw [pushWord, push_read_protected (by rwa [kindAt_push]), push_read_protected h]

theorem takeTrap_read_protected {s : State} {a : Word} (h : kindAt s a ≠ some .ram) (ret : Word) (b : Bool)
    (vector : Word) : (takeTrap ret b vector s).store.read a.toNat = s.store.read a.toNat := by
  rw [takeTrap_store, push_read_protected (by rwa [kindAt_pushWord]), pushWord_read_protected h]

theorem storeOperand_read_protected {s : State} {a : Word} (h : kindAt s a ≠ some .ram) (m : MemOperand) (v : Byte) :
    (storeOperand m v s).store.read a.toNat = s.store.read a.toNat := by
  rw [storeOperand_store, busWrite_read_protected (by rwa [kindAt_resolve]), resolve_after_store]

theorem modifyMemory_read_protected {s : State} {a : Word} (h : kindAt s a ≠ some .ram) (m : MemOperand)
    (f : Byte → Flags → Result8) : (modifyMemory m f s).store.read a.toNat = s.store.read a.toNat := by
  rw [modifyMemory, busWrite_read_protected (by simpa using h)]
  simp

theorem modifyOperand_read_protected {s : State} {a : Word} (h : kindAt s a ≠ some .ram) (t : Target)
    (f : Byte → Flags → Result8) : (modifyOperand t f s).store.read a.toNat = s.store.read a.toNat := by
  cases t with
  | acc => rfl
  | zp | zpx | abs | abx => exact modifyMemory_read_protected h _ f

/-- An instruction keeps every byte outside `RAM`: it writes the store by bus writes only, or not at all. -/
theorem Runs.read_protected {s t : State} {m : Mnemonic} (hr : Runs s m t) {a : Word} (h : kindAt s a ≠ some .ram) :
    t.store.read a.toNat = s.store.read a.toNat := by
  cases hr with
  | sta | stx | sty => exact storeOperand_read_protected h _ _
  | asl | lsr | rol | ror | inc | dec => exact modifyOperand_read_protected h _ _
  | pha | php => exact push_read_protected h _
  | jsr => rw [jumpSubroutine_eq]; exact pushWord_read_protected h _
  | brk => exact takeTrap_read_protected h _ _ _
  | adc | sbc | cmp | cpx | cpy | and | ora | eor | bit | lda | ldx | ldy =>
    simp [addWithCarry, subtractWithBorrow, accumulate_eq, compareA_eq, compareX_eq, compareY_eq, andA, orA, eorA,
      logicA_eq, bitTest_eq, loadA_eq, loadX_eq, loadY_eq]
  | bcc | bcs | beq | bne | bmi | bpl | bvc | bvs => rw [branch_store]
  | pla | plp | jmpInd | rts | rti => simp [pullA_eq, pullP_eq, jumpIndirect_eq, returnSubroutine_eq]
  | inx | iny | dex | dey | tax | tay | txa | tya | tsx | txs | jmpAbs | clc | sec | cli | sei | cld | sed | clv | nop
  | ill => rfl

theorem enterInterrupt_read_protected {s : State} {a : Word} (h : kindAt s a ≠ some .ram) (k : Interrupt) :
    (enterInterrupt k s).store.read a.toNat = s.store.read a.toNat := by
  cases k with
  | nmi => exact takeTrap_read_protected (s := s.setNmiPending false) h _ _ _
  | irq => exact takeTrap_read_protected h _ _ _

/-- Settles O7: an interrupt entry and an instruction reach the store by bus writes, which `RAM` alone obeys. -/
theorem protectedBytesNeverChange : Obligations.ProtectedBytesNeverChange := by
  intro s t hst a ha
  rcases step_cases hst with ⟨k, -, rfl⟩ | ⟨-, hx⟩
  · exact enterInterrupt_read_protected ha k
  · rw [(runs_of_exec hx).read_protected (by rwa [kindAt_fetchInstr]), fetchInstr_after_store]

/-! ### Keeping some addresses of the store -/

/-- The store with the zero fill at every address that `keep` rejects. -/
def Memory.restrict (keep : Nat → Bool) (m : Memory) : Memory := m.filter fun c => keep c.1

theorem Memory.restrict_cons (keep : Nat → Bool) (k : Nat) (w : Byte) (m : Memory) :
    Memory.restrict keep ((k, w) :: m) = if keep k then (k, w) :: m.restrict keep else m.restrict keep := by
  simp [Memory.restrict, List.filter_cons]

theorem Memory.read_restrict (keep : Nat → Bool) (m : Memory) (a : Nat) :
    (m.restrict keep).read a = if keep a then m.read a else 0#8 := by
  induction m with
  | nil => simp [Memory.restrict]
  | cons e m ih =>
    obtain ⟨k, w⟩ := e
    rw [Memory.restrict_cons]
    by_cases hak : a = k
    · subst hak
      by_cases hk : keep a <;> simp [hk, Memory.read_cons, ih]
    · by_cases hk : keep k <;> simp [hk, hak, Memory.read_cons, ih]

theorem Memory.restrict_wfFrom (keep : Nat → Bool) (m : Memory) (low : Nat) (hm : m.wfFrom low = true) :
    (m.restrict keep).wfFrom low = true := by
  induction m generalizing low with
  | nil => rfl
  | cons e m ih =>
    obtain ⟨k, w⟩ := e
    simp only [Memory.wfFrom, Bool.and_eq_true, decide_eq_true_eq] at hm
    obtain ⟨⟨⟨hlow, hspace⟩, hw⟩, htail⟩ := hm
    have hrest := ih (k + 1) htail
    rw [Memory.restrict_cons]
    split
    · simp [Memory.wfFrom, hlow, hspace, hw, hrest]
    · exact Memory.wfFrom_mono _ (k + 1) low (by omega) hrest

theorem Memory.restrict_wf (keep : Nat → Bool) (m : Memory) (hm : m.wf = true) : (m.restrict keep).wf = true :=
  Memory.restrict_wfFrom keep m 0 hm

/-- A write at a kept address. -/
theorem Memory.write_restrict (keep : Nat → Bool) (m : Memory) (a : Nat) (v : Byte) (hk : keep a = true)
    (ha : a < Config.spaceSize) (hm : m.wf = true) : (m.restrict keep).write a v = (m.write a v).restrict keep := by
  refine Memory.eq_of_read_eq _ _ (Memory.write_wf _ a v ha (m.restrict_wf keep hm))
    (Memory.restrict_wf keep _ (Memory.write_wf m a v ha hm)) fun b => ?_
  rw [Memory.read_write _ _ _ _ (m.restrict_wf keep hm), Memory.read_restrict, Memory.read_restrict,
    Memory.read_write _ _ _ _ hm]
  by_cases hb : b = a
  · simp [hb, hk]
  · simp [hb]

/-! ### The part of a state that a program can see -/

/-- `a` is an address in a `RAM` or `ROM` region of `s`. -/
def visibleAt (s : State) (a : Nat) : Bool := decide (a < Config.spaceSize) && storageAt s (BitVec.ofNat 16 a)

/-- The state without its hidden bytes: the zero fill at every address that is neither `RAM` nor `ROM` (20_memory.md R43).
Two states agree on the bus exactly when this part of them is the same, and every operation of the machine commutes with
it. -/
def State.visible (s : State) : State := s.setStore (s.store.restrict (visibleAt s))

theorem visibleAt_toNat (s : State) (a : Word) : visibleAt s a.toNat = storageAt s a := by
  simp [visibleAt, a.isLt]

/-- The visible addresses are the words at which the bus reaches the store. -/
theorem exists_storageAt_of_visibleAt {s : State} {a : Nat} (h : visibleAt s a = true) :
    ∃ w : Word, w.toNat = a ∧ storageAt s w = true := by
  simp only [visibleAt, Bool.and_eq_true, decide_eq_true_eq] at h
  obtain ⟨hlt, hw⟩ := h
  exact ⟨BitVec.ofNat 16 a, by simp [Nat.mod_eq_of_lt hlt], hw⟩

theorem visibleAt_of_regions {s t : State} (h : t.regions = s.regions) : visibleAt t = visibleAt s := by
  funext a
  simp [visibleAt, storageAt, kindAt, h]

theorem visible_read (s : State) (a : Word) (h : storageAt s a = true) :
    s.visible.store.read a.toNat = s.store.read a.toNat := by
  simp [State.visible, Memory.read_restrict, visibleAt_toNat, h]

/-- States with canonical stores that agree on the bus have the same visible part. -/
theorem AgreeOnBus.visible_eq {s t : State} (h : AgreeOnBus s t) (hs : s.store.wf = true) (ht : t.store.wf = true) :
    t.visible = s.visible := by
  obtain ⟨hst, hread⟩ := h
  have hr : t.regions = s.regions := by rw [hst]; rfl
  have hstore : t.store.restrict (visibleAt s) = s.store.restrict (visibleAt s) := by
    refine Memory.eq_of_read_eq _ _ (Memory.restrict_wf _ _ ht) (Memory.restrict_wf _ _ hs) fun a => ?_
    rw [Memory.read_restrict, Memory.read_restrict]
    by_cases ha : visibleAt s a = true
    · obtain ⟨w, rfl, hw⟩ := exists_storageAt_of_visibleAt ha
      simp [ha, hread w hw]
    · simp [ha]
  rw [State.visible, visibleAt_of_regions hr, hstore, hst]
  rfl

/-- States with the same visible part agree on the bus. -/
theorem AgreeOnBus.of_visible_eq {s t : State} (h : t.visible = s.visible) : AgreeOnBus s t := by
  have hst : t = s.setStore t.store := congrArg (fun u => u.setStore t.store) h
  refine ⟨hst, fun a ha => ?_⟩
  have hat : storageAt t a = true := by rw [hst]; exact ha
  rw [← visible_read t a hat, h, visible_read s a ha]

/-! ### Registers, flags and lines are visible -/

section visible

variable (s : State)

@[simp] theorem visible_a : s.visible.a = s.a := rfl
@[simp] theorem visible_x : s.visible.x = s.x := rfl
@[simp] theorem visible_y : s.visible.y = s.y := rfl
@[simp] theorem visible_sp : s.visible.sp = s.sp := rfl
@[simp] theorem visible_pc : s.visible.pc = s.pc := rfl
@[simp] theorem visible_p : s.visible.p = s.p := rfl
@[simp] theorem visible_deviceLog : s.visible.deviceLog = s.deviceLog := rfl
@[simp] theorem kindAt_visible (a : Word) : kindAt s.visible a = kindAt s a := rfl

@[simp] theorem setA_visible (v : Byte) : s.visible.setA v = (s.setA v).visible := rfl
@[simp] theorem setX_visible (v : Byte) : s.visible.setX v = (s.setX v).visible := rfl
@[simp] theorem setY_visible (v : Byte) : s.visible.setY v = (s.setY v).visible := rfl
@[simp] theorem setSp_visible (v : Byte) : s.visible.setSp v = (s.setSp v).visible := rfl
@[simp] theorem setPc_visible (w : Word) : s.visible.setPc w = (s.setPc w).visible := rfl
@[simp] theorem setP_visible (p : Flags) : s.visible.setP p = (s.setP p).visible := rfl
@[simp] theorem setCost_visible (n : Nat) : s.visible.setCost n = (s.setCost n).visible := rfl
@[simp] theorem setNmiPending_visible (b : Bool) : s.visible.setNmiPending b = (s.setNmiPending b).visible := rfl

end visible

/-! ### Reads see the visible part only -/

/-- A bus read takes its byte from storage or from a device, never from a hidden byte (20_memory.md R36). -/
@[simp] theorem busRead_visible (a : Word) (s : State) :
    busRead a s.visible = { value := (busRead a s).value, after := (busRead a s).after.visible } := by
  simp only [busRead, kindAt_visible]
  split
  · rfl
  · rfl
  · next h => rw [visible_read s a (by simp [storageAt, h])]
  · next h => rw [visible_read s a (by simp [storageAt, h])]

section reads

variable (s : State)

@[simp] theorem readWord_visible (al ah : Word) :
    readWord al ah s.visible = { value := (readWord al ah s).value, after := (readWord al ah s).after.visible } := by
  simp [readWord]

@[simp] theorem fetch_visible : fetch s.visible = { value := (fetch s).value, after := (fetch s).after.visible } := by
  simp [fetch]

@[simp] theorem pull_visible : pull s.visible = { value := (pull s).value, after := (pull s).after.visible } := by
  simp [pull]

@[simp] theorem pullWord_visible :
    pullWord s.visible = { value := (pullWord s).value, after := (pullWord s).after.visible } := by
  simp [pullWord]

@[simp] theorem resolve_visible (m : MemOperand) :
    resolve m s.visible =
      { ea := (resolve m s).ea, px := (resolve m s).px, after := (resolve m s).after.visible } := by
  cases m with
  | zp | zpx | zpy | abs | abx | aby => rfl
  | izx | izy => simp [resolve, zeroPagePointer, indexed]

@[simp] theorem readOperand_visible (o : Source) :
    readOperand o s.visible =
      { value := (readOperand o s).value, cost := (readOperand o s).cost
        after := (readOperand o s).after.visible } := by
  cases o with
  | imm => rfl
  | mem => simp [readOperand]

@[simp] theorem returnFromTrap_visible : returnFromTrap s.visible = (returnFromTrap s).visible := by
  simp [returnFromTrap]

@[simp] theorem branch_visible (cond : Bool) (off : Byte) :
    branch cond off s.visible = (branch cond off s).visible := by
  cases cond <;> rfl

theorem fetchInstr_visible :
    fetchInstr s.visible = { instr := (fetchInstr s).instr, after := (fetchInstr s).after.visible } := by
  simp only [fetchInstr, fetch_visible]
  split <;> rfl

end reads

/-! ### Writes reach the visible part only -/

/-- A bus write changes the store at an address in `RAM`, which is visible, or not at all (20_memory.md R37). -/
theorem busWrite_visible (a : Word) (v : Byte) (s : State) (hs : s.store.wf = true) :
    busWrite a v s.visible = (busWrite a v s).visible := by
  simp only [busWrite, kindAt_visible]
  split
  · rfl
  · rfl
  · next h =>
    have hv : visibleAt s a.toNat = true := by simp [visibleAt_toNat, storageAt, h]
    exact congrArg s.setStore (Memory.write_restrict _ s.store _ v hv a.isLt hs)
  · rfl

section writes

variable (s : State) (hs : s.store.wf = true)

include hs

theorem push_visible (v : Byte) : push v s.visible = (push v s).visible := by
  simp [push, busWrite_visible, hs]

theorem pushWord_visible (w : Word) : pushWord w s.visible = (pushWord w s).visible := by
  simp [pushWord, push_visible, push_wf, hs]

theorem takeTrap_visible (ret : Word) (b : Bool) (vector : Word) :
    takeTrap ret b vector s.visible = (takeTrap ret b vector s).visible := by
  simp [takeTrap, pushWord_visible, push_visible, pushWord_wf, hs]

theorem storeOperand_visible (m : MemOperand) (v : Byte) :
    storeOperand m v s.visible = (storeOperand m v s).visible := by
  simp [storeOperand, busWrite_visible, hs]

theorem modifyMemory_visible (m : MemOperand) (f : Byte → Flags → Result8) :
    modifyMemory m f s.visible = (modifyMemory m f s).visible := by
  simp [modifyMemory, busWrite_visible, hs]

theorem modifyOperand_visible (t : Target) (f : Byte → Flags → Result8) :
    modifyOperand t f s.visible = (modifyOperand t f s).visible := by
  cases t with
  | acc => rfl
  | zp | zpx | abs | abx => simp [modifyOperand, modifyMemory_visible, hs]

theorem jumpSubroutine_visible (w : Word) : jumpSubroutine w s.visible = (jumpSubroutine w s).visible := by
  simp [jumpSubroutine, pushWord_visible, hs]

theorem enterInterrupt_visible (k : Interrupt) : enterInterrupt k s.visible = (enterInterrupt k s).visible := by
  cases k with
  | nmi | irq => simp [enterInterrupt, takeTrap_visible, hs]

end writes

/-! ### A step -/

/-- Every instruction commutes with the visible part: its meaning is made of reads, register updates and bus writes. -/
theorem exec_visible {i : Instr} {s t : State} (h : exec i s = .next t) (hs : s.store.wf = true) :
    exec i s.visible = .next t.visible := by
  cases i <;> cases h <;> refine congrArg Host.Outcome.next ?_ <;>
    simp [loadA, loadX, loadY, storeA, storeX, storeY, andA, orA, eorA, logicA, bitTest, addWithCarry, subtractWithBorrow,
      accumulate, compareA, compareX, compareY, pullA, pullP, jumpIndirect, indirectTarget, returnSubroutine, shiftLeft,
      shiftRight, rotateLeft, rotateRight, increment, decrement, storeOperand_visible, modifyOperand_visible,
      push_visible, jumpSubroutine_visible, takeTrap_visible, hs]

theorem step_visible {s t : State} (h : step s = .next t) (hs : s.store.wf = true) :
    step s.visible = .next t.visible := by
  rcases step_cases h with ⟨k, hd, rfl⟩ | ⟨hd, hx⟩
  · rw [step_of_interrupt s.visible k hd, enterInterrupt_visible s hs]
  · rw [step_of_no_interrupt s.visible hd, fetchInstr_visible]
    exact exec_visible hx (by simpa using hs)

/-- Settles O22: a step commutes with the visible part of a state, so equal visible parts step to equal visible parts. -/
theorem hiddenBytesDoNotMatter : Obligations.HiddenBytesDoNotMatter := by
  intro s t s' t' hs ht hag hss htt
  have h : Host.Outcome.next t'.visible = Host.Outcome.next s'.visible :=
    calc
      _ = step t.visible := (step_visible htt ht).symm
      _ = step s.visible := by rw [hag.visible_eq hs ht]
      _ = _ := step_visible hss hs
  exact .of_visible_eq (Host.Outcome.next.inj h)

/-! ### Fetching from unmapped space -/

/-- The idle value is an illegal opcode byte, so an unmapped fetch gives an illegal instruction of one byte (20_memory.md
R38). -/
theorem fetchInstr_unmapped (s : State) (h : kindAt s s.pc = none) :
    fetchInstr s = { instr := .ill idleValue, after := s.setPc (s.pc + 1#16) } := by
  have hf : fetch s = { value := idleValue, after := s.setPc (s.pc + 1#16) } := by
    rw [fetch, busRead_unmapped s.pc s h]
  have hl : opcodeLength idleValue = 1 := rfl
  simp only [fetchInstr, hf, hl]
  rfl

/-- Settles O11: the illegal instruction fetched does nothing but cost 2 (47_flags_system.md R220). -/
theorem unmappedFetchWalksOn : Obligations.UnmappedFetchWalksOn := by
  intro s hd hk
  rw [step_of_no_interrupt s hd, fetchInstr_unmapped s hk]
  rfl

end Sys2Proof.Machine

/-! PROOF. The decoder and the encoder (spec 30_encoding.md). The opcode map is walked twice: constructor by constructor, for
what an instruction's opcode makes of operand bytes, and byte by byte, for each being the opcode of some instruction. The
round trips and the totality of the decoder follow. -/

namespace Sys2Proof

/-! ### The opcode map, constructor by constructor -/

/-- The illegal bytes are all that well-formedness is about (30_encoding.md R66). -/
theorem wf_ill_iff (op : Byte) : (Instr.ill op).wf = true ↔ op ∈ illegalOpcodes := by simp [Instr.wf]

/-- An illegal opcode takes no operand bytes. -/
theorem decodeOp_opcode_ill {op : Byte} (h : (Instr.ill op).wf = true) (b1 b2 : Byte) :
    decodeOp (Instr.ill op).opcode b1 b2 = .ill op :=
  Laws.OpcodeIsRead.illegal_bytes op ((wf_ill_iff op).1 h) b1 b2

/-- The opcode and the operand bytes of a well-formed instruction decode to it: one entry of the map for each constructor,
and a word is its two bytes (30_encoding.md R62, R63). -/
theorem decodeOp_operandBytes {i : Instr} (h : i.wf = true) :
    decodeOp i.opcode (i.operandBytes.getD 0 0x00#8) (i.operandBytes.getD 1 0x00#8) = i := by
  cases i with
  | ill op => exact decodeOp_opcode_ill h _ _
  | adcAbs w | adcAbx w | adcAby w | andAbs w | andAbx w | andAby w | aslAbs w | aslAbx w | bitAbs w | cmpAbs w
  | cmpAbx w | cmpAby w | cpxAbs w | cpyAbs w | decAbs w | decAbx w | eorAbs w | eorAbx w | eorAby w | incAbs w
  | incAbx w | jmpAbs w | jmpInd w | jsr w | ldaAbs w | ldaAbx w | ldaAby w | ldxAbs w | ldxAby w | ldyAbs w
  | ldyAbx w | lsrAbs w | lsrAbx w | oraAbs w | oraAbx w | oraAby w | rolAbs w | rolAbx w | rorAbs w | rorAbx w
  | sbcAbs w | sbcAbx w | sbcAby w | staAbs w | staAbx w | staAby w | stxAbs w | styAbs w =>
    simp only [Instr.opcode]
    exact congrArg _ (word_hi_lo w)
  | _ => simp only [Instr.opcode]; rfl

/-- `j` is `i`, it may be with other operand values. -/
structure Instr.SameForm (j i : Instr) : Prop where
  opcode : j.opcode = i.opcode
  mnemonic : j.mnemonic = i.mnemonic
  mode : j.mode = i.mode
  wf : j.wf = i.wf

/-- Operand bytes choose the operand's value and nothing else (30_encoding.md R67). -/
theorem decodeOp_sameForm {i : Instr} (h : i.wf = true) (b1 b2 : Byte) : (decodeOp i.opcode b1 b2).SameForm i := by
  cases i with
  | ill op => rw [decodeOp_opcode_ill h]; exact ⟨rfl, rfl, rfl, rfl⟩
  | _ => simp only [Instr.opcode]; exact ⟨rfl, rfl, rfl, rfl⟩

/-- The operand bytes that a mode keeps of a first byte and of a word (30_encoding.md R61, R62). -/
def Mode.operandBytes (m : Mode) (b1 : Byte) (w : Word) : List Byte :=
  match m.length with
  | 1 => []
  | 2 => [b1]
  | _ => [lo w, hi w]

theorem Mode.operandBytes_word (m : Mode) (b1 b2 : Byte) :
    m.operandBytes b1 (word b2 b1) = [b1, b2].take (m.length - 1) := by
  rcases m.length_cases with h | h | h <;> simp [Mode.operandBytes, h]

/-- What was decoded has the operand bytes it was decoded from, as many as its mode keeps. -/
theorem operandBytes_decodeOp_opcode {i : Instr} (h : i.wf = true) (b1 b2 : Byte) :
    (decodeOp i.opcode b1 b2).operandBytes = i.mode.operandBytes b1 (word b2 b1) := by
  cases i with
  | ill op => rw [decodeOp_opcode_ill h]; rfl
  | _ => simp only [Instr.opcode]; rfl

/-- The opcode alone gives the length (30_encoding.md R60). -/
theorem opcodeLength_opcode {i : Instr} (h : i.wf = true) : opcodeLength i.opcode = i.length :=
  congrArg Mode.length (decodeOp_sameForm h 0x00#8 0x00#8).mode

/-! ### The opcode map, byte by byte -/

/-- Each of the 256 bytes is the opcode of a well-formed instruction, the one it decodes to (30_encoding.md R63, R66). -/
theorem exists_wf_opcode_eq (op : Byte) : ∃ i : Instr, i.wf = true ∧ i.opcode = op :=
  have map : ∀ op : Byte, (decodeOp op 0x00#8 0x00#8).wf = true ∧ (decodeOp op 0x00#8 0x00#8).opcode = op := by decide
  ⟨_, map op⟩

section decodeOp

variable (op b1 b2 : Byte)

theorem wf_decodeOp : (decodeOp op b1 b2).wf = true := by
  obtain ⟨i, hi, rfl⟩ := exists_wf_opcode_eq op
  exact (decodeOp_sameForm hi b1 b2).wf.trans hi

@[simp] theorem opcode_decodeOp : (decodeOp op b1 b2).opcode = op := by
  obtain ⟨i, hi, rfl⟩ := exists_wf_opcode_eq op
  exact (decodeOp_sameForm hi b1 b2).opcode

theorem operandBytes_decodeOp : (decodeOp op b1 b2).operandBytes = [b1, b2].take (opcodeLength op - 1) := by
  obtain ⟨i, hi, rfl⟩ := exists_wf_opcode_eq op
  rw [operandBytes_decodeOp_opcode hi, Mode.operandBytes_word, opcodeLength_opcode hi, Instr.length]

/-- Mnemonic and mode do not depend on the operand bytes (30_encoding.md R67). -/
theorem decodeOp_mnemonic_mode (b1' b2' : Byte) :
    (decodeOp op b1 b2).mnemonic = (decodeOp op b1' b2').mnemonic ∧
      (decodeOp op b1 b2).mode = (decodeOp op b1' b2').mode := by
  obtain ⟨i, hi, rfl⟩ := exists_wf_opcode_eq op
  have h := decodeOp_sameForm hi b1 b2
  have h' := decodeOp_sameForm hi b1' b2'
  exact ⟨h.mnemonic.trans h'.mnemonic.symm, h.mode.trans h'.mode.symm⟩

end decodeOp

theorem eq_ill_of_mnemonic {i : Instr} (h : i.mnemonic = .ILL) : i = .ill i.opcode := by
  cases i with
  | ill op => rfl
  | _ => cases h

/-- The illegal bytes, and no others, decode to ILL (30_encoding.md R66). -/
theorem decodeOp_mnemonic_ILL_iff (op b1 b2 : Byte) : (decodeOp op b1 b2).mnemonic = .ILL ↔ op ∈ illegalOpcodes := by
  constructor
  · intro h
    have hill := eq_ill_of_mnemonic h
    have hwf := wf_decodeOp op b1 b2
    rw [hill, opcode_decodeOp] at hwf
    exact (wf_ill_iff op).1 hwf
  · intro h
    rw [Laws.OpcodeIsRead.illegal_bytes op h b1 b2]
    rfl

/-! ### Lists of bytes -/

/-- No opcode asks for more than two operand bytes (30_encoding.md R60). -/
theorem operands_cases {op : Byte} {operands : List Byte} (h : opcodeLength op = operands.length + 1) :
    operands = [] ∨ (∃ b1, operands = [b1]) ∨ ∃ b1 b2, operands = [b1, b2] := by
  rw [← List.length_eq_zero_iff, ← List.length_eq_one_iff, ← List.length_eq_two]
  have := opcodeLength_cases op
  omega

/-- An opcode byte followed by as many operand bytes as it asks for: they decode, and the bytes after them are left. -/
theorem decode_append {op : Byte} {operands : List Byte} (rest : List Byte)
    (h : opcodeLength op = operands.length + 1) :
    decode (op :: operands ++ rest) = .ok (decodeOp op (operands.getD 0 0x00#8) (operands.getD 1 0x00#8), rest) := by
  rcases operands_cases h with rfl | ⟨b1, rfl⟩ | ⟨b1, b2, rfl⟩
  · exact decode_one op rest h
  · exact decode_two op b1 rest h
  · exact decode_three op b1 b2 rest h

/-- Only such a list decodes. -/
theorem exists_of_decode_eq_ok {bytes rest : List Byte} {i : Instr} (h : decode bytes = .ok (i, rest)) :
    ∃ op operands, bytes = op :: operands ++ rest ∧ opcodeLength op = operands.length + 1 := by
  match bytes with
  | [] => cases h
  | op :: tail =>
    rcases opcodeLength_cases op with hl | hl | hl
    · rw [decode_one op tail hl] at h
      cases h
      exact ⟨op, [], rfl, hl⟩
    · match tail with
      | [] => simp [decode, hl] at h
      | b1 :: tail =>
        rw [decode_two op b1 tail hl] at h
        cases h
        exact ⟨op, [b1], rfl, hl⟩
    · match tail with
      | [] | [_] => simp [decode, hl] at h
      | b1 :: b2 :: tail =>
        rw [decode_three op b1 b2 tail hl] at h
        cases h
        exact ⟨op, [b1, b2], rfl, hl⟩

/-- The instruction decoded from an opcode byte and its operand bytes is encoded by them. -/
theorem encode_decodeOp {op : Byte} {operands : List Byte} (h : opcodeLength op = operands.length + 1) :
    encode (decodeOp op (operands.getD 0 0x00#8) (operands.getD 1 0x00#8)) = op :: operands := by
  rw [encode, opcode_decodeOp, operandBytes_decodeOp, h]
  rcases operands_cases h with rfl | ⟨b1, rfl⟩ | ⟨b1, b2, rfl⟩ <;> rfl

theorem opcodeLength_eq_operandBytes_length {i : Instr} (h : i.wf = true) :
    opcodeLength i.opcode = i.operandBytes.length + 1 :=
  (opcodeLength_opcode h).trans (encode_length i).symm

/-- Three bytes are enough for every opcode (30_encoding.md R60, R67). -/
theorem decode_three_bytes_isOk (op b1 b2 : Byte) : ∃ i rest, decode [op, b1, b2] = .ok (i, rest) := by
  rcases opcodeLength_cases op with h | h | h
  · exact ⟨_, _, decode_one op [b1, b2] h⟩
  · exact ⟨_, _, decode_two op b1 [b2] h⟩
  · exact ⟨_, _, decode_three op b1 b2 [] h⟩

/-! ### The obligations -/

/-- Settles O24: the encoder gives the opcode and as many operand bytes as the decoder asks for, and they decode to `i`. -/
theorem decodeOfEncode : Obligations.DecodeOfEncode := by
  intro i rest h
  rw [encode, decode_append rest (opcodeLength_eq_operandBytes_length h), decodeOp_operandBytes h]

/-- Settles O25: what decodes is an opcode with its operand bytes, which encode the instruction they decode to. -/
theorem encodeOfDecode : Obligations.EncodeOfDecode := by
  intro bytes rest i h
  obtain ⟨op, operands, rfl, hl⟩ := exists_of_decode_eq_ok h
  rw [decode_append rest hl] at h
  cases h
  exact ⟨wf_decodeOp _ _ _, by rw [encode_decodeOp hl]⟩

/-- Settles O26: every opcode is a well-formed instruction's, and operand bytes do not change the form. -/
theorem decodingIsTotal : Obligations.DecodingIsTotal := by
  refine ⟨by decide, by decide, fun op b1 b2 b1' b2' => ?_⟩
  obtain ⟨hmnemonic, hmode⟩ := decodeOp_mnemonic_mode op b1 b2 b1' b2'
  refine ⟨decode_three_bytes_isOk op b1 b2, hmnemonic, hmode, decodeOp_mnemonic_ILL_iff op b1 b2, fun h => ?_⟩
  rw [Laws.OpcodeIsRead.illegal_bytes op h b1 b2]
  rfl

/-- Settles O27: each word is the encoding of the instruction it stands for, with the bytes after it. -/
theorem sampleWordsDecode : Obligations.SampleWordsDecode :=
  ⟨decodeOfEncode (.ldaImm 0x44#8) [] rfl, decodeOfEncode (.staAbs 0x0200#16) [] rfl,
    decodeOfEncode (.ldxZpy 0xFF#8) [] rfl, decodeOfEncode (.stxZpy 0xFE#8) [] rfl,
    decodeOfEncode (.ldxAby 0x1234#16) [] rfl, decodeOfEncode (.adcIzx 0x10#8) [] rfl,
    decodeOfEncode (.sbcIzy 0x10#8) [] rfl, decodeOfEncode (.bitAbs 0x0300#16) [] rfl,
    decodeOfEncode (.rorAbx 0x02FF#16) [] rfl, decodeOfEncode (.jmpInd 0x03FF#16) [] rfl,
    decodeOfEncode (.jsr 0x1234#16) [] rfl, decodeOfEncode (.bne 0x10#8) [] rfl, decodeOfEncode .pha [] rfl,
    decodeOfEncode .brk [] rfl, decodeOfEncode (.ill 0x89#8) [] rfl,
    decodeOfEncode (.ill 0x9E#8) [0x00#8, 0x02#8] rfl⟩

end Sys2Proof

/-! PROOF. The step and addressing (spec 40_step_and_addressing.md): the effective address of every memory mode and what
reading an operand costs, the fetch of an instruction byte by byte, the batched step, the accesses that a device sees, and
the instructions that leave the store alone. -/

namespace Sys2Proof.Machine

/-! ### Effective addresses, as numbers -/

theorem zeroPage_eq_ofNat (b : Byte) : zeroPage b = BitVec.ofNat 16 b.toNat := by
  rw [← zeroPage_toNat b, BitVec.ofNat_toNat, BitVec.setWidth_eq]

/-- A pointer's bytes are read at `z` and one past it in the zero page, low byte first (40_step_and_addressing.md R93,
R94). -/
theorem zeroPagePointer_eq (z : Byte) (s : State) :
    let l := busRead (BitVec.ofNat 16 z.toNat) s
    let h := busRead (BitVec.ofNat 16 ((z.toNat + 1) % 256)) l.after
    zeroPagePointer z s = { value := word h.value l.value, after := h.after } := by
  simp only [zeroPagePointer, readWord, zeroPage_eq_ofNat, BitVec.toNat_add]
  rfl

theorem indexed_ea_toNat (base : Word) (i : Byte) (s : State) :
    (indexed base i s).ea.toNat = (base.toNat + i.toNat) % 65536 := by
  rw [indexed, BitVec.toNat_add, BitVec.toNat_setWidth_of_le (by decide)]

/-- Settles O28: the direct modes are sums of bytes or of a word and a byte, the indirect ones go through the pointer that
`zeroPagePointer` reads. -/
theorem effectiveAddresses : Obligations.EffectiveAddresses := by
  intro b w s
  refine ⟨⟨zeroPage_toNat b, rfl⟩, ⟨?_, rfl⟩, ⟨?_, rfl⟩, ⟨rfl, rfl⟩, ⟨indexed_ea_toNat w s.x s, rfl⟩,
    ⟨indexed_ea_toNat w s.y s, rfl⟩, ?_, ?_⟩
  · rw [resolve, zeroPage_toNat, BitVec.toNat_add]
  · rw [resolve, zeroPage_toNat, BitVec.toNat_add]
  · simp [resolve, zeroPagePointer_eq, word_toNat]
  · simp only [resolve, zeroPagePointer_eq, indexed_ea_toNat, word_toNat]
    exact ⟨trivial, rfl⟩

/-! ### Page crossing -/

/-- Adding an index leaves the page exactly when the low byte overflows, at the top of the space too
(40_step_and_addressing.md R91). -/
theorem indexed_px (base : Word) (i : Byte) (s : State) :
    (indexed base i s).px = decide (255 < base.toNat % 256 + i.toNat) := by
  have hea := indexed_ea_toNat base i s
  rw [Bool.eq_iff_iff, decide_eq_true_iff]
  change (hi (indexed base i s).ea != hi base) = true ↔ _
  rw [bne_iff_ne, ne_eq, BitVec.toNat_eq, hi_toNat, hi_toNat, hea]
  have := base.isLt
  have := i.isLt
  omega

/-- A page crossing in a mode of base cost `n` adds 1 (70_reset_and_hazards.md R276). -/
theorem add_indexed_px (n : Nat) (base : Word) (i : Byte) (s : State) :
    n + (indexed base i s).px.toNat = if 255 < base.toNat % 256 + i.toNat then n + 1 else n := by
  rw [indexed_px]
  split <;> simp [*]

theorem word_toNat_mod (h l : Byte) : (word h l).toNat % 256 = l.toNat := by rw [← lo_toNat, lo_word]

/-- Settles O29: the read is the definition of `readOperand`; the three modes that index a word pay for a page crossing. -/
theorem readOperandsAndPageCrossing : Obligations.ReadOperandsAndPageCrossing := by
  refine ⟨fun m s => ⟨rfl, rfl⟩, fun b w s => ⟨rfl, rfl, rfl, rfl, rfl, rfl, rfl, ?_, ?_, rfl, ?_⟩⟩
  · exact add_indexed_px 4 w s.x s
  · exact add_indexed_px 4 w s.y s
  · rw [← zeroPage_eq_ofNat, ← word_toNat_mod]
    exact add_indexed_px 5 _ s.y _

/-! ### The bytes of an instruction, one fetch each -/

/-- Bytes fetched, and the state after the fetches. -/
structure BytesFetched where
  bytes : List Byte
  after : State

/-- `n` fetches in sequence (40_step_and_addressing.md R82); `fetchInstr_eq` ties it to `fetchInstr`. -/
def fetchBytes : Nat → State → BytesFetched
  | 0, s => { bytes := [], after := s }
  | n + 1, s =>
    let r := fetchBytes n (fetch s).after
    { bytes := (fetch s).value :: r.bytes, after := r.after }

/-- An instruction is fetched by as many fetches as its opcode asks for. -/
theorem fetchInstr_eq (s : State) :
    let r := fetchBytes (opcodeLength (fetch s).value) s
    fetchInstr s =
      { instr := decodeOp (fetch s).value (r.bytes.getD 1 0x00#8) (r.bytes.getD 2 0x00#8), after := r.after } := by
  rcases opcodeLength_cases (fetch s).value with h | h | h <;> simp only [fetchInstr, h] <;> rfl

theorem length_decodeOp (op b1 b2 : Byte) : (decodeOp op b1 b2).length = opcodeLength op :=
  congrArg Mode.length (decodeOp_mnemonic_mode op b1 b2 0x00#8 0x00#8).2

/-- The state after the fetch of an instruction: one fetch for each of its bytes. -/
theorem fetchInstr_after (s : State) : (fetchInstr s).after = (fetchBytes (fetchInstr s).instr.length s).after := by
  simp only [fetchInstr_eq, length_decodeOp]

/-- The address of byte `n + 1` of an instruction, counted from its second byte. -/
theorem add_one_add_ofNat (a : Word) (n : Nat) : a + 1#16 + BitVec.ofNat 16 n = a + BitVec.ofNat 16 (n + 1) := by
  rw [BitVec.add_assoc, Nat.add_comm n 1, BitVec.ofNat_add]

theorem fetchBytes_after_pc (n : Nat) (s : State) : (fetchBytes n s).after.pc = s.pc + BitVec.ofNat 16 n := by
  induction n generalizing s with
  | zero => simp [fetchBytes]
  | succ n ih => rw [fetchBytes, ih, fetch_after_pc, add_one_add_ofNat]

/-- The fetch of an instruction moves `pc` by its length (40_step_and_addressing.md R99). -/
theorem fetchInstr_after_pc (s : State) :
    (fetchInstr s).after.pc = s.pc + BitVec.ofNat 16 (fetchInstr s).instr.length := by
  rw [fetchInstr_after, fetchBytes_after_pc]

/-! ### A step without an interrupt -/

/-- The bytes lie in storage from `pc` on, modulo 65536. -/
def BytesAtPc (s : State) (bytes : List Byte) : Prop :=
  ∀ k (h : k < bytes.length), storageAt s (s.pc + BitVec.ofNat 16 k) = true ∧
    s.store.read (s.pc + BitVec.ofNat 16 k).toNat = bytes[k]

theorem kindAt_of_storageAt {s : State} {a : Word} (h : storageAt s a = true) :
    kindAt s a = some .ram ∨ kindAt s a = some .rom := by
  unfold storageAt at h
  split at h <;> simp_all

/-- The first of the bytes is fetched, and the others lie where `pc` then is. -/
theorem BytesAtPc.fetch_cons {s : State} {b : Byte} {bytes : List Byte} (h : BytesAtPc s (b :: bytes)) :
    fetch s = { value := b, after := s.setPc (s.pc + 1#16) } ∧ BytesAtPc (s.setPc (s.pc + 1#16)) bytes := by
  constructor
  · obtain ⟨hstorage, hread⟩ := h 0 (by simp)
    simp only [BitVec.add_zero, List.getElem_cons_zero] at hstorage hread
    rw [fetch_storage s (kindAt_of_storageAt hstorage), hread]
  · intro k hk
    have hnext := h (k + 1) (by simpa using hk)
    rwa [← add_one_add_ofNat] at hnext

theorem BytesAtPc.fetchBytes_eq {s : State} {bytes : List Byte} (h : BytesAtPc s bytes) :
    fetchBytes bytes.length s = { bytes := bytes, after := s.setPc (s.pc + BitVec.ofNat 16 bytes.length) } := by
  induction bytes generalizing s with
  | nil => simp [fetchBytes, State.setPc]
  | cons b bytes ih =>
    obtain ⟨hfetch, htail⟩ := h.fetch_cons
    simp only [List.length_cons, fetchBytes, hfetch, ih htail, setPc_pc, add_one_add_ofNat]
    rfl

/-- Bytes in storage that decode to `i` are fetched as `i`. -/
theorem BytesAtPc.fetchInstr_eq_of_decode {s : State} {bytes : List Byte} {i : Instr} (h : BytesAtPc s bytes)
    (hd : decode bytes = .ok (i, [])) :
    fetchInstr s = { instr := i, after := s.setPc (s.pc + BitVec.ofNat 16 bytes.length) } := by
  obtain ⟨op, operands, rfl, hl⟩ := exists_of_decode_eq_ok hd
  rw [decode_append [] hl] at hd
  cases hd
  rw [List.append_nil] at h ⊢
  have hlen : opcodeLength op = (op :: operands).length := hl
  simp only [fetchInstr_eq, h.fetch_cons.1, hlen, h.fetchBytes_eq]
  rfl

/-- Settles O10: the fetch gives the instruction that the bytes decode to. -/
theorem stepRunsTheDecodedInstruction : Obligations.StepRunsTheDecodedInstruction := by
  intro s i bytes hdecode hdue hbytes
  rw [step_of_no_interrupt s hdue, BytesAtPc.fetchInstr_eq_of_decode hbytes hdecode]

/-- Every branch is the branch template on its condition (46_control_flow.md R194). -/
theorem exec_branchForm {off : Byte} {f : BranchForm} (hf : f ∈ branchForms off) (s : State) :
    exec f.instr s = .next (branch (f.cond s.p) off s) := by
  simp only [branchForms, List.mem_cons, List.not_mem_nil, or_false] at hf
  rcases hf with rfl | rfl | rfl | rfl | rfl | rfl | rfl | rfl <;> rfl

/-- Settles O12: the fetch moves `pc` by the length, and an instruction that is no taken transfer leaves it there. -/
theorem programCounterMovesByTheLength : Obligations.ProgramCounterMovesByTheLength := by
  intro s hdue i hi
  rw [step_of_no_interrupt s hdue, ← fetchInstr_after_pc]
  rcases hi with hm | ⟨off, f, hf, hif, hcond⟩
  · obtain ⟨t, ht⟩ := exec_next i (fetchInstr s).after
    obtain ⟨-, -, -, -, hpc⟩ := (runs_of_exec ht).registerFrame
    exact ⟨t, ht, hpc hm⟩
  · refine ⟨_, (congrArg (exec · _) hif).trans (exec_branchForm hf _), ?_⟩
    simp [branch_pc, hcond]

/-! ### The batched step -/

/-- A step completes from every state (60_exceptions.md R230). -/
theorem exists_step_eq_next (s : State) : ∃ t, step s = .next t := by
  cases h : dueInterrupt s with
  | some k => exact ⟨_, step_of_interrupt s k h⟩
  | none => rw [step_of_no_interrupt s h]; exact exec_next _ _

/-- A batch that begins with a step. -/
theorem runN_succ {s t : State} {k : Nat} {r : RunResult} (hs : step s = .next t) (hr : runN k t = .next r) :
    runN (k + 1) s = .next { after := r.after, total := t.cost + r.total } := by
  simp [runN, hs, hr]

/-- A run of the machine that begins with a step. -/
theorem core_run_succ {M : Host.Core} {s t : M.State} (k : Nat) (hs : M.step s = .next t) :
    M.run (k + 1) s = M.run k t := by
  rw [Host.Core.run, hs]

/-- A batch completes where as many steps of the machine end (40_step_and_addressing.md R81). -/
theorem exists_runN_eq_next (k : Nat) (s : State) :
    ∃ r, runN k s = .next r ∧ Host.Core.run Sys2Proof.core k s = .next r.after := by
  induction k generalizing s with
  | zero => exact ⟨{ after := s, total := 0 }, rfl, rfl⟩
  | succ k ih =>
    obtain ⟨t, ht⟩ := exists_step_eq_next s
    obtain ⟨r, hr, hrun⟩ := ih t
    exact ⟨_, runN_succ ht hr, (core_run_succ (M := Sys2Proof.core) k ht).trans hrun⟩

theorem runN_add {j k : Nat} {s : State} {r q : RunResult} (hr : runN j s = .next r) (hq : runN k r.after = .next q) :
    runN (j + k) s = .next { after := q.after, total := r.total + q.total } := by
  induction j generalizing s r with
  | zero => cases hr; simpa using hq
  | succ j ih =>
    obtain ⟨t, ht⟩ := exists_step_eq_next s
    obtain ⟨u, hu, -⟩ := exists_runN_eq_next j t
    rw [runN_succ ht hu] at hr
    cases hr
    rw [Nat.add_right_comm, runN_succ ht (ih hu hq), Nat.add_assoc]

/-- Settles O13: a batch is one step and the rest of the batch, and every step completes. -/
theorem batchIsRepeatedStep : Obligations.BatchIsRepeatedStep := by
  refine ⟨fun _ => rfl, fun s t h => ?_, exists_runN_eq_next, fun j k s => ?_⟩
  · exact runN_succ (k := 0) (r := { after := t, total := 0 }) h rfl
  · obtain ⟨r, hr, -⟩ := exists_runN_eq_next j s
    obtain ⟨q, hq, -⟩ := exists_runN_eq_next k r.after
    exact ⟨r, q, hr, hq, runN_add hr hq⟩

/-! ### What an instruction leaves in the store -/

/-- An instruction that is no storer leaves the store as it is: it makes no bus write (40_step_and_addressing.md R97). -/
theorem Runs.store_eq {s t : State} {m : Mnemonic} (h : Runs s m t) (hm : m ∉ storers) : t.store = s.store := by
  cases h with
  | sta | stx | sty | asl | lsr | rol | ror | inc | dec | pha | php | jsr | brk => exact absurd (by decide) hm
  | adc | sbc | cmp | cpx | cpy | and | ora | eor | bit | lda | ldx | ldy =>
    simp only [addWithCarry, subtractWithBorrow, accumulate_eq, compareA_eq, compareX_eq, compareY_eq, andA, orA, eorA,
      logicA_eq, bitTest_eq, loadA_eq, loadX_eq, loadY_eq]
  | bcc | bcs | beq | bne | bmi | bpl | bvc | bvs => exact branch_store _ _ _
  | pla | plp | jmpInd | rts | rti =>
    simp only [pullA_eq, pullP_eq, jumpIndirect_eq, returnSubroutine_eq, setCost_store, returnFromTrap_store]
  | inx | iny | dex | dey | tax | tay | txa | tya | tsx | txs | jmpAbs | clc | sec | cli | sei | cld | sed | clv | nop
  | ill => rfl

/-- Settles O18: every instruction runs the meaning of its mnemonic, and only the storers' meanings write. -/
theorem onlyStorersChangeMemory : Obligations.OnlyStorersChangeMemory := fun _ _ _ h hm a =>
  congrArg (Memory.read · a) ((runs_of_exec h).store_eq hm)

/-! ### Where every address is one device's

Each operation of the machine is then a fixed sequence of calls of that device (20_memory.md R41, R49). -/

@[simp] theorem kindAt_fetch (s : State) (a : Word) : kindAt (fetch s).after a = kindAt s a :=
  kindAt_congr _ _ _ (by simp)

@[simp] theorem kindAt_pull (s : State) (a : Word) : kindAt (pull s).after a = kindAt s a :=
  kindAt_congr _ _ _ (by simp)

section device

variable {id : Nat} {s : State} (h : ∀ a, kindAt s a = some (.device id))

include h

theorem fetchBytes_deviceLog (n : Nat) :
    (fetchBytes n s).after.deviceLog =
      (List.range n).foldl (fun log k => .call id (s.pc + BitVec.ofNat 16 k) none :: log) s.deviceLog := by
  induction n generalizing s with
  | zero => rfl
  | succ n ih =>
    have hlog : (fetch s).after.deviceLog = .call id s.pc none :: s.deviceLog := by
      rw [fetch, busRead_device _ id _ (h _)]; rfl
    rw [fetchBytes, ih (by simpa using h), hlog, List.range_succ_eq_map, List.foldl_cons, List.foldl_map]
    simp [add_one_add_ofNat]

theorem readWord_device (al ah : Word) :
    readWord al ah s =
      let l := .call id al none :: s.deviceLog
      { value := word (Config.deviceAnswer id l ah) (Config.deviceAnswer id s.deviceLog al)
        after := s.setDeviceLog (.call id ah none :: l) } := by
  have hl := busRead_device al id s (h al)
  have hh := busRead_device ah id (s.setDeviceLog (.call id al none :: s.deviceLog)) (h ah)
  rw [readWord, hl, hh]
  rfl

theorem push_deviceLog_device (v : Byte) : (push v s).deviceLog = .call id (stackAddr s.sp) (some v) :: s.deviceLog := by
  rw [push_deviceLog, busWrite_device _ v id s (h _)]
  rfl

theorem pull_deviceLog_device :
    (pull s).after.deviceLog = .call id (stackAddr (s.sp + 1#8)) none :: s.deviceLog := by
  rw [pull_deviceLog, busRead_device _ id s (h _)]
  rfl

theorem pushWord_deviceLog_device (w : Word) :
    (pushWord w s).deviceLog =
      .call id (stackAddr (s.sp - 1#8)) (some (lo w)) :: .call id (stackAddr s.sp) (some (hi w)) :: s.deviceLog := by
  rw [pushWord, push_deviceLog_device (by simpa using h), push_deviceLog_device h, push_sp]

theorem pullWord_deviceLog_device :
    (pullWord s).after.deviceLog =
      .call id (stackAddr (s.sp + 2#8)) none :: .call id (stackAddr (s.sp + 1#8)) none :: s.deviceLog := by
  have hsp : s.sp + 1#8 + 1#8 = s.sp + 2#8 := by rw [BitVec.add_assoc]; rfl
  change (pull (pull s).after).after.deviceLog = _
  rw [pull_deviceLog_device (by simpa using h), pull_deviceLog_device h, pull_after_sp, hsp]

theorem takeTrap_deviceLog_device (ret : Word) (b : Bool) (vector : Word) :
    (takeTrap ret b vector s).deviceLog =
      .call id (vector + 1#16) none :: .call id vector none :: .call id (stackAddr (s.sp - 2#8)) (some (s.p.pack b)) ::
        .call id (stackAddr (s.sp - 1#8)) (some (lo ret)) :: .call id (stackAddr s.sp) (some (hi ret)) :: s.deviceLog := by
  simp only [takeTrap]
  rw [readWord_device (by simpa using h)]
  simp [push_deviceLog_device (s := pushWord ret s) (by simpa using h), pushWord_deviceLog_device h]

theorem returnFromTrap_deviceLog_device :
    (returnFromTrap s).deviceLog =
      .call id (stackAddr (s.sp + 3#8)) none :: .call id (stackAddr (s.sp + 2#8)) none ::
        .call id (stackAddr (s.sp + 1#8)) none :: s.deviceLog := by
  have hpull : ∀ a, kindAt ((pull s).after.setP (Flags.unpack (pull s).value)) a = some (.device id) := by
    simpa using h
  simp only [returnFromTrap, setCost_deviceLog, setPc_deviceLog, pullWord_deviceLog_device hpull, setP_deviceLog,
    pull_deviceLog_device h, setP_sp, pull_after_sp]
  rw [BitVec.add_assoc, BitVec.add_assoc]
  rfl

theorem resolve_izy_device (b : Byte) :
    resolve (.izy b) s =
      let l1 := .call id (zeroPage b) none :: s.deviceLog
      indexed (word (Config.deviceAnswer id l1 (zeroPage (b + 1#8))) (Config.deviceAnswer id s.deviceLog (zeroPage b)))
        s.y (s.setDeviceLog (.call id (zeroPage (b + 1#8)) none :: l1)) := by
  rw [resolve, zeroPagePointer, readWord_device h]

/-- The read of an operand in memory is one call at its effective address. -/
theorem readOperand_mem_device (m : MemOperand) :
    let e := resolve m s
    (readOperand (.mem m) s).value = Config.deviceAnswer id e.after.deviceLog e.ea ∧
      (readOperand (.mem m) s).after.deviceLog = .call id e.ea none :: e.after.deviceLog := by
  have hr := busRead_device (resolve m s).ea id (resolve m s).after ((kindAt_resolve m _ s).trans (h _))
  simp [readOperand, hr]

/-- A read-modify-write in memory is a call that reads and then a call that writes, at one address (45_shift_incdec.md
R180). -/
theorem modifyMemory_deviceLog_device (m : MemOperand) (f : Byte → Flags → Result8) :
    let e := resolve m s
    (modifyMemory m f s).deviceLog =
      .call id e.ea (some (f (Config.deviceAnswer id e.after.deviceLog e.ea) s.p).value) :: .call id e.ea none ::
        e.after.deviceLog := by
  have hk : kindAt (resolve m s).after (resolve m s).ea = some (.device id) := (kindAt_resolve m _ s).trans (h _)
  simp only [modifyMemory, busRead_device _ id _ hk]
  rw [busWrite_device _ _ id]
  · rfl
  · exact hk

end device

/-- Settles O15: each access is one call of the device, and the meanings make them in the order of the rules. -/
theorem devicesSeeAccessesInOrder : Obligations.DevicesSeeAccessesInOrder := by
  intro id s h rd wr ans
  refine ⟨?_, fun b => ⟨_, rfl, ?_⟩, fun w => ⟨_, rfl, ?_⟩, fun w => ⟨_, rfl, ?_⟩, fun w => ⟨_, rfl, ?_⟩, ⟨_, rfl, ?_⟩,
    ⟨_, rfl, ?_⟩, ⟨_, rfl, ?_⟩⟩
  · rw [fetchInstr_after, fetchBytes_deviceLog h]
  · rw [loadA_eq]
    have hread := readOperand_mem_device h (.izy b)
    rwa [resolve_izy_device h] at hread
  · exact modifyMemory_deviceLog_device h (.abs w) incByte
  · rw [jumpIndirect_eq, indirectTarget, readWord_device h]
    rfl
  · rw [jumpSubroutine_eq, pushWord_deviceLog_device h]
  · rw [returnSubroutine_eq, pullWord_deviceLog_device h]
  · exact takeTrap_deviceLog_device h _ _ _
  · exact returnFromTrap_deviceLog_device h

end Sys2Proof.Machine

/-! PROOF. Loads, stores and register transfers (spec 41_load_store_transfer.md): what the forms of one mnemonic have in
common, and what a bus write stores and tells a device. -/

namespace Sys2Proof.Machine

/-! ### Transfers -/

theorem setNZ_eq_bits (p : Flags) (v : Byte) : p.setNZ v = { p with n := v.getLsbD 7, z := decide (v = 0#8) } := by
  rw [Flags.setNZ, BitVec.msb_eq_getLsbD_last, beq_eq_decide]

/-- Settles O34: the meanings set the register and the cost, and all but TXS set N and Z by `setNZ`. -/
theorem transferInstructions : Obligations.TransferInstructions := by
  intro s nz
  have hnz : s.p.setNZ = nz := funext (setNZ_eq_bits s.p)
  rw [← hnz]
  exact ⟨⟨rfl, rfl, rfl, rfl, rfl, rfl⟩, rfl, rfl, rfl, rfl, rfl, rfl⟩

/-! ### Loads -/

/-- The form has the opcode byte of its instruction, which runs `meaning` on the form's operand. -/
structure ReadForm.Executes (f : ReadForm) (meaning : Source → State → State) : Prop where
  opcode_eq : f.instr.opcode = f.opcode
  exec_eq : ∀ s, exec f.instr s = .next (meaning f.operand s)

/-- The forms of a list are checked all at once, what they are against what they do. -/
theorem ReadForm.executes_of_map_eq {fs : List ReadForm} {meaning : Source → State → State}
    (ho : fs.map (·.instr.opcode) = fs.map (·.opcode))
    (hx : ∀ s, fs.map (fun f => exec f.instr s) = fs.map (fun f => .next (meaning f.operand s))) :
    ∀ f ∈ fs, f.Executes meaning := fun f hf =>
  ⟨List.map_inj_left.1 ho f hf, fun s => List.map_inj_left.1 (hx s) f hf⟩

theorem ldaForms_execute (b : Byte) (w : Word) : ∀ f ∈ ldaForms b w, f.Executes loadA :=
  ReadForm.executes_of_map_eq rfl fun _ => rfl

theorem ldxForms_execute (b : Byte) (w : Word) : ∀ f ∈ ldxForms b w, f.Executes loadX :=
  ReadForm.executes_of_map_eq rfl fun _ => rfl

theorem ldyForms_execute (b : Byte) (w : Word) : ∀ f ∈ ldyForms b w, f.Executes loadY :=
  ReadForm.executes_of_map_eq rfl fun _ => rfl

/-- Settles O32: every form runs the load of its register, whose next state is known whole. -/
theorem loadInstructions : Obligations.LoadInstructions := by
  intro b w s
  refine ⟨fun f hf => ?_, fun f hf => ?_, fun f hf => ?_⟩
  · obtain ⟨hop, hx⟩ := ldaForms_execute b w f hf
    exact ⟨hop, by rw [hx, loadA_eq, setNZ_eq_bits]⟩
  · obtain ⟨hop, hx⟩ := ldxForms_execute b w f hf
    exact ⟨hop, by rw [hx, loadX_eq, setNZ_eq_bits]⟩
  · obtain ⟨hop, hx⟩ := ldyForms_execute b w f hf
    exact ⟨hop, by rw [hx, loadY_eq, setNZ_eq_bits]⟩

/-! ### Stores -/

/-- The device history after a bus write in a state `u` with the regions of `s`. -/
theorem busWrite_deviceLog_eq_logAfterWrite {s u : State} (hr : u.regions = s.regions) (a : Word) (v : Byte) :
    (busWrite a v u).deviceLog = logAfterWrite s a v u.deviceLog := by
  rw [busWrite_deviceLog, logAfterWrite, kindAt_congr u s a hr]
  cases kindAt s a with
  | none => rfl
  | some k => cases k <;> rfl

/-- A bus write in a state `u` with the regions and the store of `s` stores its byte and nothing else. -/
theorem busWrite_storesByte {s u : State} (hr : u.regions = s.regions) (hs : u.store = s.store) (a : Word) (v : Byte) :
    StoresByte s (busWrite a v u) a v := by
  have hstore : (busWrite a v u).store = (busWrite a v s).store := by
    rw [busWrite_store, busWrite_store, kindAt_congr u s a hr, hs]
  rw [StoresByte, hstore]
  exact ⟨fun b hb => busWrite_read_ne a v s b hb, fun h => by rw [busWrite_store, if_neg h],
    fun h hwf => by rw [busWrite_read a v s _ hwf, if_pos ⟨rfl, h⟩]⟩

theorem storeOperand_storesByte (m : MemOperand) (v : Byte) (s : State) :
    StoresByte s (storeOperand m v s) (resolve m s).ea v :=
  busWrite_storesByte (u := (resolve m s).after) (by simp) (by simp) _ v

/-- The form has the opcode byte of its instruction and the cost of that byte, and the instruction stores `register`. -/
structure WriteForm.Executes (f : WriteForm) (register : State → Byte) : Prop where
  opcode_eq : f.instr.opcode = f.opcode
  cost_eq : writeCost f.operand = cycleTable.getD f.opcode.toNat 0
  exec_eq : ∀ s, exec f.instr s = .next (storeOperand f.operand (register s) s)

/-- The forms of a list are checked all at once, what they are against what they do. -/
theorem WriteForm.executes_of_map_eq {fs : List WriteForm} {register : State → Byte}
    (ho : fs.map (·.instr.opcode) = fs.map (·.opcode))
    (hc : fs.map (fun f => writeCost f.operand) = fs.map (fun f => cycleTable.getD f.opcode.toNat 0))
    (hx : ∀ s, fs.map (fun f => exec f.instr s) = fs.map (fun f => .next (storeOperand f.operand (register s) s))) :
    ∀ f ∈ fs, f.Executes register := fun f hf =>
  ⟨List.map_inj_left.1 ho f hf, List.map_inj_left.1 hc f hf, fun s => List.map_inj_left.1 (hx s) f hf⟩

theorem staForms_execute (b : Byte) (w : Word) : ∀ f ∈ staForms b w, f.Executes State.a :=
  WriteForm.executes_of_map_eq rfl rfl fun _ => rfl

theorem stxForms_execute (b : Byte) (w : Word) : ∀ f ∈ stxForms b w, f.Executes State.x :=
  WriteForm.executes_of_map_eq rfl rfl fun _ => rfl

theorem styForms_execute (b : Byte) (w : Word) : ∀ f ∈ styForms b w, f.Executes State.y :=
  WriteForm.executes_of_map_eq rfl rfl fun _ => rfl

/-- Settles O33: every form stores its register by one bus write at the address that its operand resolves to. -/
theorem storeInstructions : Obligations.StoreInstructions := by
  intro b w s v f hf
  obtain ⟨register, ⟨hop, hcost, hx⟩, rfl⟩ : ∃ register, f.Executes register ∧ v = register s := by
    rcases hf with ⟨hf, hv⟩ | ⟨hf, hv⟩ | ⟨hf, hv⟩
    · exact ⟨_, staForms_execute b w f hf, hv⟩
    · exact ⟨_, stxForms_execute b w f hf, hv⟩
    · exact ⟨_, styForms_execute b w f hf, hv⟩
  refine ⟨hop, storeOperand f.operand (register s) s, hx s, ?_, storeOperand_storesByte _ _ s⟩
  rw [← hcost, ← busWrite_deviceLog_eq_logAfterWrite (u := (resolve f.operand s).after) (by simp)]
  exact storeOperand_eq f.operand (register s) s

end Sys2Proof.Machine

/-! PROOF. The stack (spec 42_stack.md): push and pull against the single bus access each makes, their round trip, and the
four stack instructions. -/

namespace Sys2Proof.Machine

/-! ### Push and pull -/

/-- A pull undoes a push into `RAM`: both use the slot that `S` named before the push (R130, R131). -/
theorem pull_push (v : Byte) (s : State) (hk : kindAt s (stackAddr s.sp) = some .ram) (hs : s.store.wf = true) :
    pull (push v s) = { value := v, after := (push v s).setSp s.sp } := by
  have hsp : (push v s).sp + 1#8 = s.sp := by rw [push_sp, BitVec.sub_add_cancel]
  have hread : (push v s).store.read (stackAddr s.sp).toNat = v := by
    rw [push_store, busWrite_read _ v s _ hs, if_pos ⟨rfl, hk⟩]
  rw [pull_storage, hsp, hread]
  rw [hsp, kindAt_push]
  exact .inl hk

/-- A pull is the bus read of its slot with `S` raised: the read does not depend on `S` (R131). -/
theorem pull_after_eq_setSp (s : State) :
    (pull s).after = (busRead (stackAddr (s.sp + 1#8)) s).after.setSp (s.sp + 1#8) := by
  rw [pull_after_eq, busRead_after]
  rfl

/-- Settles O30: the two operations are one bus access each, and the slot's number bounds it to page 1. -/
theorem pushAndPullStayInPageOne : Obligations.PushAndPullStayInPageOne := fun v s =>
  ⟨rfl, stackAddr_toNat s.sp, by rw [push_sp]; bv_omega, pull_value s, pull_after_eq_setSp s,
    by rw [pull_after_sp, BitVec.toNat_add]; rfl,
    fun hk hs => by rw [pull_push v s hk hs]; exact ⟨rfl, rfl⟩⟩

/-! ### The stack instructions -/

/-- An instruction of cost `n` that pushes `v`: its whole next state, and the byte that it stores. -/
theorem push_setCost_storesByte (v : Byte) (n : Nat) (s : State) :
    let t := (push v s).setCost n
    t = { s with
      store := t.store, deviceLog := logAfterWrite s (stackAddr s.sp) v s.deviceLog, sp := s.sp - 1#8, cost := n } ∧
    StoresByte s t (stackAddr s.sp) v := by
  refine ⟨?_, busWrite_storesByte (u := s) rfl rfl (stackAddr s.sp) v⟩
  rw [← busWrite_deviceLog_eq_logAfterWrite rfl, push_eq]
  rfl

/-- Settles O35: PHA and PHP are one push each, of `A` and of the packed flags. -/
theorem pushInstructions : Obligations.PushInstructions := fun s =>
  ⟨⟨rfl, rfl⟩, ⟨_, rfl, push_setCost_storesByte s.a 3 s⟩, ⟨_, rfl, push_setCost_storesByte (s.p.pack true) 3 s⟩⟩

theorem exec_pla (s : State) : exec .pla s = .next ((pullA s).setCost 4) := rfl

theorem exec_plp (s : State) : exec .plp s = .next ((pullP s).setCost 4) := rfl

/-- Settles O36: PLA and PLP are one pull each, whose value and device history are those of the bus read. -/
theorem pullInstructions : Obligations.PullInstructions := by
  intro s r
  refine ⟨⟨rfl, rfl⟩, ?_, ?_⟩
  · rw [exec_pla, pullA_eq, pull_value, pull_deviceLog, setNZ_eq_bits]
    rfl
  · rw [exec_plp, pullP_eq, pull_value, pull_deviceLog]
    rfl

end Sys2Proof.Machine

/-! PROOF. Arithmetic and compares (spec 43_arithmetic.md): the flag functions of ADC and SBC as numbers, in binary and in
decimal mode, decimal mode on packed decimal digits, and the compares. -/

namespace Sys2Proof.Machine

/-! ### Bits as numbers -/

theorem toNat_and_0xF0 (v : Byte) : v.toNat &&& 0xF0 = v.toNat / 16 * 16 := by
  have hhigh : v &&& 0xF0#8 = v >>> 4 <<< 4 := by
    refine BitVec.eq_of_getLsbD_eq fun j hj => ?_
    interval_cases j <;> simp
  have hlt : v.toNat / 16 * 16 < 256 := by omega
  simpa [Nat.shiftLeft_eq, Nat.shiftRight_eq_div_pow, Nat.mod_eq_of_lt hlt] using congrArg BitVec.toNat hhigh

theorem and_0x0F (n : Nat) : n &&& 0x0F = n % 16 := Nat.and_two_pow_sub_one_eq_mod n 4

theorem and_0xFF (n : Nat) : n &&& 0xFF = n % 256 := Nat.and_two_pow_sub_one_eq_mod n 8

theorem getLsbD_seven (v : Byte) : v.getLsbD 7 = v.msb := (BitVec.msb_eq_getLsbD_last v).symm

theorem msb_ofNat (t : Nat) : (BitVec.ofNat 8 t).msb = t.testBit 7 := by
  rw [← getLsbD_seven, BitVec.getLsbD_ofNat]
  rfl

theorem ofNat_beq_zero (t : Nat) : (BitVec.ofNat 8 t == 0#8) = decide (t % 256 = 0) := by
  simp [beq_eq_decide, BitVec.toNat_eq]

theorem setNZ_ofNat (p : Flags) (t : Nat) :
    p.setNZ (BitVec.ofNat 8 t) = { p with n := decide (128 ≤ t % 256), z := decide (t % 256 = 0) } := by
  rw [setNZ_eq, BitVec.toNat_ofNat]

/-! ### The forms -/

theorem adcForms_execute (b : Byte) (w : Word) : ∀ f ∈ adcForms b w, f.Executes addWithCarry :=
  ReadForm.executes_of_map_eq rfl fun _ => rfl

theorem sbcForms_execute (b : Byte) (w : Word) : ∀ f ∈ sbcForms b w, f.Executes subtractWithBorrow :=
  ReadForm.executes_of_map_eq rfl fun _ => rfl

theorem cmpForms_execute (b : Byte) (w : Word) : ∀ f ∈ cmpForms b w, f.Executes compareA :=
  ReadForm.executes_of_map_eq rfl fun _ => rfl

theorem cpxForms_execute (b : Byte) (w : Word) : ∀ f ∈ cpxForms b w, f.Executes compareX :=
  ReadForm.executes_of_map_eq rfl fun _ => rfl

theorem cpyForms_execute (b : Byte) (w : Word) : ∀ f ∈ cpyForms b w, f.Executes compareY :=
  ReadForm.executes_of_map_eq rfl fun _ => rfl

/-! ### The mode -/

section

variable (a m : Byte) {p : Flags}

theorem adcFlags_binary (h : p.d = false) : adcFlags a m p = adcBinary a m p := by simp [adcFlags, h]

theorem adcFlags_decimal (h : p.d = true) : adcFlags a m p = adcDecimal a m p := by simp [adcFlags, h]

theorem sbcFlags_binary (h : p.d = false) : sbcFlags a m p = sbcBinary a m p := by simp [sbcFlags, h]

theorem sbcFlags_decimal (h : p.d = true) : sbcFlags a m p = sbcDecimal a m p := by simp [sbcFlags, h]

end

/-! ### Binary mode -/

theorem addOverflow_eq_signs (a m t : Byte) : addOverflow a m t = (!(a.msb ^^ m.msb) && (a.msb ^^ t.msb)) := by
  rw [addOverflow, BitVec.msb_and, BitVec.msb_not, BitVec.msb_xor, BitVec.msb_xor]
  rfl

/-- Signed overflow of a sum with carry, read off the three signs, is the signed sum's leaving the byte's range (R140). -/
theorem addOverflow_sum (a m : Byte) (c : Bool) :
    addOverflow a m (BitVec.ofNat 8 (a.toNat + m.toNat + c.toNat)) =
      decide (a.toInt + m.toInt + c.toNat < -128 ∨ 127 < a.toInt + m.toInt + c.toNat) := by
  have hc : c.toNat ≤ 1 := Bool.toNat_le c
  rw [addOverflow_eq_signs, BitVec.msb_eq_decide, BitVec.msb_eq_decide, BitVec.msb_eq_decide, BitVec.toNat_ofNat,
    BitVec.toInt_eq_toNat_cond, BitVec.toInt_eq_toNat_cond, Bool.eq_iff_iff]
  simp only [Bool.and_eq_true, Bool.not_eq_true', bne_eq_false_iff_eq, bne_iff_ne, ne_eq, decide_eq_decide,
    decide_eq_true_eq]
  omega

theorem adcBinary_eq (a m : Byte) (p : Flags) :
    let t := a.toNat + m.toNat + p.c.toNat
    let q := a.toInt + m.toInt + p.c.toNat
    adcBinary a m p =
      { value := BitVec.ofNat 8 t
        flags := { p with
          n := decide (128 ≤ t % 256), z := decide (t % 256 = 0), c := decide (255 < t)
          v := decide (q < -128 ∨ 127 < q) } } := by
  simp [adcBinary, setNZ_ofNat, addOverflow_sum]

/-- Settles O39: every form runs ADC on its operand, whose flag function in binary mode is the sum with carry. -/
theorem adcBinaryMode : Obligations.AdcBinaryMode := by
  intro b w s hd f hf
  obtain ⟨hop, hx⟩ := adcForms_execute b w f hf
  exact ⟨hop, by rw [hx, addWithCarry, accumulate_eq, adcFlags_binary _ _ hd, adcBinary_eq]⟩

/-- Binary SBC is binary ADC of the one's complement of the operand (R142). -/
theorem sbcBinary_eq_adcBinary (a m : Byte) (p : Flags) : sbcBinary a m p = adcBinary a (~~~m) p := by
  have h : m ^^^ 0xFF#8 = ~~~m := BitVec.xor_allOnes
  simp [sbcBinary, adcBinary, addOverflow, h]

theorem toInt_not (m : Byte) : (~~~m).toInt = -1 - m.toInt := by
  rw [BitVec.toInt_eq_toNat_cond, BitVec.toInt_eq_toNat_cond, BitVec.toNat_not]
  omega

/-- The sum of R142 with the one's complement is the difference less the borrow, plus 256. -/
theorem sbcBinary_eq (a m : Byte) (p : Flags) :
    let t : Int := (a.toNat : Int) - m.toNat - (1 - (p.c.toNat : Int))
    let q : Int := a.toInt - m.toInt - (1 - (p.c.toNat : Int))
    sbcBinary a m p =
      { value := BitVec.ofInt 8 t
        flags := { p with
          n := decide (128 ≤ t % 256), z := decide (t % 256 = 0), c := decide (0 ≤ t)
          v := decide (q < -128 ∨ 127 < q) } } := by
  intro t q
  have hm : (~~~m).toNat = 255 - m.toNat := by simp
  have ht : ((a.toNat + (~~~m).toNat + p.c.toNat : Nat) : Int) = t + 256 := by omega
  have hq : a.toInt + (~~~m).toInt + p.c.toNat = q := by rw [toInt_not]; omega
  have hvalue : BitVec.ofNat 8 (a.toNat + (~~~m).toNat + p.c.toNat) = BitVec.ofInt 8 t := by
    rw [← BitVec.ofInt_natCast, ht]
    exact BitVec.eq_of_toNat_eq (by rw [BitVec.toNat_ofInt, BitVec.toNat_ofInt]; omega)
  rw [sbcBinary_eq_adcBinary, adcBinary_eq, hvalue, hq]
  simp only [Result8.mk.injEq, Flags.mk.injEq, decide_eq_decide, true_and]
  omega

/-- Settles O40: every form runs SBC on its operand, whose flag function in binary mode is the difference less the borrow. -/
theorem sbcBinaryMode : Obligations.SbcBinaryMode := by
  intro b w s hd f hf
  obtain ⟨hop, hx⟩ := sbcForms_execute b w f hf
  exact ⟨hop, by rw [hx, subtractWithBorrow, accumulate_eq, sbcFlags_binary _ _ hd, sbcBinary_eq]⟩

/-! ### Decimal mode -/

/-- The pseudocode of R141 with its masks: a digit is a remainder or a quotient by 16. -/
theorem adcDecimal_eq (a m : Byte) (p : Flags) :
    let c := p.c.toNat
    let lo0 := (a.toNat &&& 0x0F) + (m.toNat &&& 0x0F) + c
    let lo1 := if 0x0A ≤ lo0 then ((lo0 + 0x06) &&& 0x0F) + 0x10 else lo0
    let t := (a.toNat &&& 0xF0) + (m.toNat &&& 0xF0) + lo1
    let t' := if 0xA0 ≤ t then t + 0x60 else t
    adcDecimal a m p =
      { value := BitVec.ofNat 8 t'
        flags := { p with
          z := decide ((a.toNat + m.toNat + c) &&& 0xFF = 0), n := t.testBit 7
          v := (!(a.getLsbD 7 ^^ m.getLsbD 7)) && (a.getLsbD 7 ^^ t.testBit 7), c := decide (0x100 ≤ t') } } := by
  simp only [toNat_and_0xF0, and_0x0F, and_0xFF, adcDecimal, addOverflow_eq_signs, msb_ofNat, getLsbD_seven,
    beq_eq_decide]
  rfl

/-- Settles O41: every form runs ADC on its operand, whose flag function in decimal mode is the pseudocode. -/
theorem adcDecimalMode : Obligations.AdcDecimalMode := by
  intro b w s hd f hf
  obtain ⟨hop, hx⟩ := adcForms_execute b w f hf
  exact ⟨hop, by rw [hx, addWithCarry, accumulate_eq, adcFlags_decimal _ _ hd, adcDecimal_eq]⟩

/-- The flags of the binary subtraction as R142 writes them, by the bits of the sum with the one's complement. -/
theorem sbcBinary_flags_eq (a m : Byte) (p : Flags) :
    let t := a.toNat + (m ^^^ 0xFF#8).toNat + p.c.toNat
    (sbcBinary a m p).flags = { p with
      n := t.testBit 7, z := decide (t % 256 = 0), c := decide (0xFF < t)
      v := (a.getLsbD 7 ^^ m.getLsbD 7) && (a.getLsbD 7 ^^ t.testBit 7) } := by
  simp only [sbcBinary, Flags.setNZ, BitVec.msb_and, BitVec.msb_xor, msb_ofNat, getLsbD_seven, ofNat_beq_zero]

/-- The pseudocode of R143 with its masks. -/
theorem decimalDifference_eq (a m : Byte) (c : Bool) :
    let lo0 : Int := ((a.toNat &&& 0x0F : Nat) : Int) - ((m.toNat &&& 0x0F : Nat) : Int) + (c.toNat : Int) - 1
    let lo1 : Int := if lo0 < 0 then (lo0 - 0x06) % 0x10 - 0x10 else lo0
    let d : Int := ((a.toNat &&& 0xF0 : Nat) : Int) - ((m.toNat &&& 0xF0 : Nat) : Int) + lo1
    decimalDifference a m c = if d < 0 then d - 0x60 else d := by
  simp only [toNat_and_0xF0, and_0x0F]
  rfl

/-- Settles O42: every form runs SBC on its operand, whose flag function in decimal mode takes `A` from the pseudocode and
the flags from the binary subtraction. -/
theorem sbcDecimalMode : Obligations.SbcDecimalMode := by
  intro b w s hd f hf
  obtain ⟨hop, hx⟩ := sbcForms_execute b w f hf
  refine ⟨hop, ?_⟩
  rw [hx, subtractWithBorrow, accumulate_eq, sbcFlags_decimal _ _ hd, sbcDecimal, sbcBinary_flags_eq,
    decimalDifference_eq]

/-! ### Decimal mode on packed decimal digits -/

theorem bcd_toNat {n : Nat} (h : n < 100) : (bcd n).toNat = n / 10 * 16 + n % 10 := by
  rw [bcd, BitVec.toNat_ofNat]
  omega

theorem bcd_toNat_mod {n : Nat} (h : n < 100) : (bcd n).toNat % 16 = n % 10 := by rw [bcd_toNat h]; omega

theorem bcd_toNat_div {n : Nat} (h : n < 100) : (bcd n).toNat / 16 = n / 10 := by rw [bcd_toNat h]; omega

/-- A carry out of the low digits is worth 16 in packed decimal and 10 in the sum, so before the high digit is corrected the
packed digits add up to those of the sum. -/
theorem decimalLowSum_bcd {m n : Nat} (hm : m < 100) (hn : n < 100) (c : Bool) :
    let k := m + n + c.toNat
    (bcd m).toNat / 16 * 16 + (bcd n).toNat / 16 * 16 + decimalLowSum (bcd m) (bcd n) c = k / 10 * 16 + k % 10 := by
  intro k
  have hc : c.toNat ≤ 1 := Bool.toNat_le c
  simp only [decimalLowSum, bcd_toNat_mod, bcd_toNat_div, hm, hn]
  split
  case isTrue hcarry =>
    have hlow : (m % 10 + n % 10 + c.toNat + 6) % 16 + 16 = m % 10 + n % 10 + c.toNat + 6 := by omega
    have hhigh : k / 10 = m / 10 + n / 10 + 1 := by omega
    omega
  case isFalse hcarry =>
    have hhigh : k / 10 = m / 10 + n / 10 := by omega
    omega

/-- Decimal ADC on two-digit numbers: the high digit is corrected exactly when the sum reaches 100 (R141). -/
theorem adcDecimal_bcd {m n : Nat} (hm : m < 100) (hn : n < 100) (p : Flags) :
    (adcDecimal (bcd m) (bcd n) p).value = bcd ((m + n + p.c.toNat) % 100) ∧
      (adcDecimal (bcd m) (bcd n) p).flags.c = decide (100 ≤ m + n + p.c.toNat) := by
  have hc : p.c.toNat ≤ 1 := Bool.toNat_le p.c
  rw [← BitVec.toNat_inj, bcd_toNat (by omega)]
  simp only [adcDecimal, decimalLowSum_bcd hm hn, decide_eq_decide, BitVec.toNat_ofNat]
  by_cases hcarry : 100 ≤ m + n + p.c.toNat
  · have hmod : (m + n + p.c.toNat) % 100 = m + n + p.c.toNat - 100 := by omega
    rw [if_pos (by omega), hmod]
    omega
  · have hmod : (m + n + p.c.toNat) % 100 = m + n + p.c.toNat := by omega
    rw [if_neg (by omega), hmod]
    omega

/-- A borrow from the high digit is worth 16 in packed decimal and 10 in the difference, so before the high digit is
corrected the difference of the packed digits has the digits of the difference, rounded down as an integer. -/
theorem decimalDifference_bcd {m n : Nat} (hm : m < 100) (hn : n < 100) (c : Bool) :
    let k : Int := (m : Int) - n - (1 - c.toNat)
    decimalDifference (bcd m) (bcd n) c = k / 10 * 16 + k % 10 - if k < 0 then 0x60 else 0 := by
  intro k
  have hc : c.toNat ≤ 1 := Bool.toNat_le c
  have hlow (i : Nat) (h : i < 100) : ((bcd i).toNat : Int) % 16 = i % 10 := by exact_mod_cast bcd_toNat_mod h
  have hhigh (i : Nat) (h : i < 100) : ((bcd i).toNat : Int) / 16 = i / 10 := by exact_mod_cast bcd_toNat_div h
  simp only [decimalDifference, hlow, hhigh, hm, hn]
  generalize hlo : (m : Int) % 10 - n % 10 + c.toNat - 1 = lo
  have hk : k = 10 * (m / 10 - n / 10) + lo := by omega
  have hrange : -10 ≤ lo ∧ lo ≤ 9 := by omega
  by_cases hborrow : lo < 0
  · have hfix : (lo - 6) % 16 - 16 = lo - 6 := by omega
    rw [if_pos hborrow, hfix]
    split <;> omega
  · rw [if_neg hborrow]
    split <;> omega

/-- Decimal SBC on two-digit numbers: the high digit is corrected exactly when the difference is negative (R143). -/
theorem sbcDecimal_bcd {m n : Nat} (hm : m < 100) (hn : n < 100) (p : Flags) :
    (sbcDecimal (bcd m) (bcd n) p).value = bcd ((m + 99 + p.c.toNat - n) % 100) ∧
      (sbcDecimal (bcd m) (bcd n) p).flags.c = decide (n + 1 ≤ m + p.c.toNat) := by
  have hc : p.c.toNat ≤ 1 := Bool.toNat_le p.c
  constructor
  · rw [← BitVec.toNat_inj, bcd_toNat (by omega)]
    simp only [sbcDecimal, decimalDifference_bcd hm hn, BitVec.toNat_ofInt]
    split <;> omega
  · simp only [sbcDecimal, sbcBinary_eq, bcd_toNat hm, bcd_toNat hn, decide_eq_decide]
    omega

/-- Settles O43: with D = 1 the two flag functions are the decimal ones, which are right on packed decimal digits. -/
theorem decimalModeIsCorrectOnBcd : Obligations.DecimalModeIsCorrectOnBcd := by
  intro m n p hm hn hd
  rw [adcFlags_decimal _ _ hd, sbcFlags_decimal _ _ hd, ← and_assoc]
  exact ⟨adcDecimal_bcd hm hn p, sbcDecimal_bcd hm hn p⟩

/-! ### Compares -/

/-- What the three compares share: the flags of comparing `v` with the operand, and the history and cost of the operand
read. -/
def compareWith (v : Byte) (o : Source) (s : State) : State :=
  { s with
    p := compareFlags v (readOperand o s).value s.p
    deviceLog := (readOperand o s).after.deviceLog, cost := (readOperand o s).cost }

theorem compareFlags_eq (r m : Byte) (p : Flags) :
    compareFlags r m p = { p with
      n := decide (128 ≤ (r.toNat + 256 - m.toNat) % 256), z := decide (r.toNat = m.toNat)
      c := decide (m.toNat ≤ r.toNat) } := by
  have hdiff : (r - m).toNat = (r.toNat + 256 - m.toNat) % 256 := by rw [BitVec.toNat_sub]; omega
  have hzero : (r.toNat + 256 - m.toNat) % 256 = 0 ↔ r.toNat = m.toNat := by omega
  simp only [compareFlags, setNZ_eq, hdiff, hzero]

/-- Settles O44: every form runs the compare of its register, and the three are one function of the value compared. -/
theorem compareInstructions : Obligations.CompareInstructions := by
  intro b w s f v hf
  obtain ⟨meaning, ⟨hop, hx⟩, hmeaning⟩ :
      ∃ meaning, f.Executes meaning ∧ meaning f.operand s = compareWith v f.operand s := by
    rcases hf with ⟨hf, rfl⟩ | ⟨hf, rfl⟩ | ⟨hf, rfl⟩
    · exact ⟨_, cmpForms_execute b w f hf, compareA_eq _ s⟩
    · exact ⟨_, cpxForms_execute b w f hf, compareX_eq _ s⟩
    · exact ⟨_, cpyForms_execute b w f hf, compareY_eq _ s⟩
  exact ⟨hop, by rw [hx, hmeaning, compareWith, compareFlags_eq]⟩

end Sys2Proof.Machine

/-! PROOF. Logic and bit test (spec 44_logic.md): the forms of AND, ORA and EOR as one meaning with a function of `A` and the
operand, and the flags of BIT as numbers. -/

namespace Sys2Proof.Machine

/-! ### Bits as numbers -/

theorem getLsbD_seven_eq_decide (v : Byte) : v.getLsbD 7 = decide (128 ≤ v.toNat) := by
  rw [getLsbD_seven, BitVec.msb_eq_decide]

theorem getLsbD_six_eq_decide (v : Byte) : v.getLsbD 6 = decide (64 ≤ v.toNat % 128) := by
  rw [BitVec.getLsbD, Nat.testBit_eq_decide_div_mod_eq, decide_eq_decide]
  omega

theorem and_eq_zero_iff (a m : Byte) :
    a &&& m = 0#8 ↔ ∀ k : Fin 8, (a.getLsbD k && m.getLsbD k) = false := by
  simp only [← BitVec.getLsbD_and]
  constructor
  · intro h k
    rw [h, BitVec.getLsbD_zero]
  · intro h
    exact BitVec.eq_of_getLsbD_eq fun k hk => (h ⟨k, hk⟩).trans BitVec.getLsbD_zero.symm

/-! ### AND, ORA, EOR -/

theorem andForms_execute (b : Byte) (w : Word) : ∀ f ∈ andForms b w, f.Executes (logicA (· &&& ·)) :=
  ReadForm.executes_of_map_eq rfl fun _ => rfl

theorem oraForms_execute (b : Byte) (w : Word) : ∀ f ∈ oraForms b w, f.Executes (logicA (· ||| ·)) :=
  ReadForm.executes_of_map_eq rfl fun _ => rfl

theorem eorForms_execute (b : Byte) (w : Word) : ∀ f ∈ eorForms b w, f.Executes (logicA (· ^^^ ·)) :=
  ReadForm.executes_of_map_eq rfl fun _ => rfl

/-- Settles O37: every form runs `logicA` with the function of its mnemonic, which acts on each bit alone. -/
theorem logicInstructions : Obligations.LogicInstructions := by
  intro b w s f op hf
  obtain ⟨g, ⟨hop, hx⟩, hbits⟩ : ∃ g : Byte → Byte → Byte, f.Executes (logicA g) ∧
      ∀ a m k, (g a m).getLsbD k = op (a.getLsbD k) (m.getLsbD k) := by
    rcases hf with ⟨hf, rfl⟩ | ⟨hf, rfl⟩ | ⟨hf, rfl⟩
    · exact ⟨_, andForms_execute b w f hf, fun _ _ _ => BitVec.getLsbD_and⟩
    · exact ⟨_, oraForms_execute b w f hf, fun _ _ _ => BitVec.getLsbD_or⟩
    · exact ⟨_, eorForms_execute b w f hf, fun _ _ _ => BitVec.getLsbD_xor⟩
  refine ⟨hop, g s.a (readOperand f.operand s).value, fun k _ => hbits _ _ k, ?_⟩
  rw [hx, logicA_eq, setNZ_eq, getLsbD_seven_eq_decide]

/-! ### BIT -/

theorem bitForms_execute (b : Byte) (w : Word) : ∀ f ∈ bitForms b w, f.Executes bitTest :=
  ReadForm.executes_of_map_eq rfl fun _ => rfl

theorem bitFlags_eq (a m : Byte) (p : Flags) :
    bitFlags a m p = { p with
      z := decide (∀ k : Fin 8, (a.getLsbD k && m.getLsbD k) = false)
      n := decide (128 ≤ m.toNat), v := decide (64 ≤ m.toNat % 128) } := by
  simp only [bitFlags, beq_eq_decide, and_eq_zero_iff, getLsbD_seven_eq_decide, getLsbD_six_eq_decide]

/-- Settles O38: both forms run `bitTest`, whose flags are Z from the common bits, N and V from the operand alone. -/
theorem bitInstruction : Obligations.BitInstruction := by
  intro b w s f hf
  obtain ⟨hop, hx⟩ := bitForms_execute b w f hf
  exact ⟨hop, by rw [hx, bitTest_eq, bitFlags_eq]⟩

end Sys2Proof.Machine

/-! PROOF. Shifts, rotates, increments and decrements (spec 45_shift_incdec.md): the six functions as numbers, and the forms
on memory and on the accumulator as one meaning with such a function. -/

namespace Sys2Proof.Machine

/-! ### Bits as numbers -/

theorem getLsbD_zero_eq_decide (v : Byte) : v.getLsbD 0 = decide (v.toNat % 2 = 1) := by
  rw [BitVec.getLsbD, Nat.testBit_zero]

theorem toNat_shiftLeft_one (v : Byte) : (v <<< 1).toNat = v.toNat * 2 % 256 := by
  rw [BitVec.toNat_shiftLeft, Nat.shiftLeft_eq]

theorem toNat_ushiftRight_one (v : Byte) : (v >>> 1).toNat = v.toNat / 2 := by
  rw [BitVec.toNat_ushiftRight, Nat.shiftRight_eq_div_pow]

/-- Setting a clear bit of a byte is adding it: there is no carry. -/
theorem or_flagBit_eq_add (v : Byte) (b : Bool) (k : Nat) (h : v.getLsbD k = false) :
    v ||| flagBit b k = v + flagBit b k := by
  refine (BitVec.add_eq_or_of_and_eq_zero v _ (BitVec.eq_of_getLsbD_eq fun j hj => ?_)).symm
  rw [BitVec.getLsbD_and, flagBit_getLsbD b k j hj, BitVec.getLsbD_zero]
  by_cases hjk : j = k
  · rw [hjk, h, Bool.false_and]
  · simp [hjk]

theorem toNat_rotatedLeft (v : Byte) (c : Bool) :
    (v <<< 1 ||| flagBit c 0).toNat = (v.toNat * 2 + c.toNat) % 256 := by
  have hc : (flagBit c 0).toNat = c.toNat := by cases c <;> rfl
  rw [or_flagBit_eq_add _ c 0 (by simp), BitVec.toNat_add, toNat_shiftLeft_one, hc, Nat.mod_add_mod]

theorem toNat_rotatedRight (v : Byte) (c : Bool) :
    (v >>> 1 ||| flagBit c 7).toNat = v.toNat / 2 + 128 * c.toNat := by
  have hc : (flagBit c 7).toNat = 128 * c.toNat := by cases c <;> rfl
  have hle : c.toNat ≤ 1 := Bool.toNat_le c
  rw [or_flagBit_eq_add _ c 7 (by simp), BitVec.toNat_add, toNat_ushiftRight_one, hc]
  omega

/-! ### The six functions as numbers -/

/-- A result byte with N and Z of it, by the number of that byte. -/
theorem result_setNZ_eq {v : Byte} {r : Nat} (h : v.toNat = r) (p : Flags) :
    ({ value := v, flags := p.setNZ v } : Result8) =
      { value := BitVec.ofNat 8 r, flags := { p with n := decide (128 ≤ r), z := decide (r = 0) } } := by
  subst h
  rw [setNZ_eq, BitVec.ofNat_toNat, BitVec.setWidth_eq]

theorem aslByte_eq (v : Byte) (p : Flags) :
    let r := v.toNat * 2 % 256
    aslByte v p =
      { value := BitVec.ofNat 8 r
        flags := { p with n := decide (128 ≤ r), z := decide (r = 0), c := decide (128 ≤ v.toNat) } } := by
  rw [← getLsbD_seven_eq_decide]
  exact result_setNZ_eq (toNat_shiftLeft_one v) { p with c := v.getLsbD 7 }

/-- Bit 7 of half a byte is clear, so N is too (R171). -/
theorem lsrByte_eq (v : Byte) (p : Flags) :
    let r := v.toNat / 2
    lsrByte v p =
      { value := BitVec.ofNat 8 r
        flags := { p with n := false, z := decide (r = 0), c := decide (v.toNat % 2 = 1) } } := by
  have hn : false = decide (128 ≤ v.toNat / 2) := (decide_eq_false (by omega)).symm
  rw [hn, ← getLsbD_zero_eq_decide]
  exact result_setNZ_eq (toNat_ushiftRight_one v) { p with c := v.getLsbD 0 }

theorem rolByte_eq (v : Byte) (p : Flags) :
    let r := (v.toNat * 2 + p.c.toNat) % 256
    rolByte v p =
      { value := BitVec.ofNat 8 r
        flags := { p with n := decide (128 ≤ r), z := decide (r = 0), c := decide (128 ≤ v.toNat) } } := by
  rw [← getLsbD_seven_eq_decide]
  exact result_setNZ_eq (toNat_rotatedLeft v p.c) { p with c := v.getLsbD 7 }

theorem rorByte_eq (v : Byte) (p : Flags) :
    let r := v.toNat / 2 + 128 * p.c.toNat
    rorByte v p =
      { value := BitVec.ofNat 8 r
        flags := { p with n := decide (128 ≤ r), z := decide (r = 0), c := decide (v.toNat % 2 = 1) } } := by
  rw [← getLsbD_zero_eq_decide]
  exact result_setNZ_eq (toNat_rotatedRight v p.c) { p with c := v.getLsbD 0 }

theorem incByte_eq (v : Byte) (p : Flags) :
    let r := (v.toNat + 1) % 256
    incByte v p =
      { value := BitVec.ofNat 8 r, flags := { p with n := decide (128 ≤ r), z := decide (r = 0) } } :=
  result_setNZ_eq (BitVec.toNat_add v 1#8) p

theorem decByte_eq (v : Byte) (p : Flags) :
    let r := (v.toNat + 255) % 256
    decByte v p =
      { value := BitVec.ofNat 8 r, flags := { p with n := decide (128 ≤ r), z := decide (r = 0) } } :=
  result_setNZ_eq (by rw [BitVec.toNat_sub, Nat.add_comm]; rfl) p

/-- Settles O45: one equation for each function. -/
theorem shiftAndIncrementFunctions : Obligations.ShiftAndIncrementFunctions := fun v p =>
  ⟨aslByte_eq v p, lsrByte_eq v p, rolByte_eq v p, rorByte_eq v p, incByte_eq v p, decByte_eq v p⟩

/-! ### Read-modify-write on memory -/

theorem modifyMemory_storesByte (m : MemOperand) (f : Byte → Flags → Result8) (s : State) :
    StoresByte s (modifyMemory m f s) (resolve m s).ea
      (f (busRead (resolve m s).ea (resolve m s).after).value s.p).value :=
  busWrite_storesByte (by simp) (by simp) _ _

/-- The form has the opcode byte of its instruction, which runs the form's function on its operand at the form's cost. -/
structure RmwForm.Executes (f : RmwForm) : Prop where
  opcode_eq : f.instr.opcode = f.opcode
  exec_eq : ∀ s, exec f.instr s = .next ((modifyMemory f.operand f.f s).setCost f.cost)

/-- The forms of a list are checked all at once, what they are against what they do. -/
theorem RmwForm.executes_of_map_eq {fs : List RmwForm}
    (ho : fs.map (·.instr.opcode) = fs.map (·.opcode))
    (hx : ∀ s, fs.map (fun f => exec f.instr s) = fs.map (fun f => .next ((modifyMemory f.operand f.f s).setCost f.cost))) :
    ∀ f ∈ fs, f.Executes := fun f hf =>
  ⟨List.map_inj_left.1 ho f hf, fun s => List.map_inj_left.1 (hx s) f hf⟩

theorem rmwForms_execute (b : Byte) (w : Word) : ∀ f ∈ rmwForms b w, f.Executes :=
  RmwForm.executes_of_map_eq rfl fun _ => rfl

/-- Settles O47: every form runs `modifyMemory`, whose read and write are at the address that its operand resolves to. -/
theorem readModifyWriteOnMemory : Obligations.ReadModifyWriteOnMemory := by
  intro b w s f hf
  obtain ⟨hop, hx⟩ := rmwForms_execute b w f hf
  refine ⟨hop, _, hx s, ?_, modifyMemory_storesByte f.operand f.f s⟩
  rw [← busWrite_deviceLog_eq_logAfterWrite (by simp), modifyMemory_eq]
  rfl

/-! ### The accumulator and the index registers -/

/-- Settles O46: every form runs `modifyAccumulator` with its function. -/
theorem accumulatorShifts : Obligations.AccumulatorShifts := by
  intro s f hf
  have hop : accForms.map (·.instr.opcode) = accForms.map (·.opcode) := rfl
  have hx : accForms.map (fun f => exec f.instr s) =
      accForms.map (fun f => .next ((modifyAccumulator f.f s).setCost 2)) := rfl
  refine ⟨List.map_inj_left.1 hop f hf, ?_⟩
  rw [List.map_inj_left.1 hx f hf, modifyAccumulator_eq]
  rfl

theorem exec_inx (s : State) :
    exec .inx s = .next { s with x := (incByte s.x s.p).value, p := (incByte s.x s.p).flags, cost := 2 } := rfl

theorem exec_iny (s : State) :
    exec .iny s = .next { s with y := (incByte s.y s.p).value, p := (incByte s.y s.p).flags, cost := 2 } := rfl

theorem exec_dex (s : State) :
    exec .dex s = .next { s with x := (decByte s.x s.p).value, p := (decByte s.x s.p).flags, cost := 2 } := rfl

theorem exec_dey (s : State) :
    exec .dey s = .next { s with y := (decByte s.y s.p).value, p := (decByte s.y s.p).flags, cost := 2 } := rfl

/-- Settles O48: the four instructions are `incByte` and `decByte` on a register. -/
theorem indexIncrementsAndDecrements : Obligations.IndexIncrementsAndDecrements := fun s =>
  ⟨⟨rfl, rfl, rfl, rfl⟩, by rw [exec_inx, incByte_eq], by rw [exec_iny, incByte_eq], by rw [exec_dex, decByte_eq],
    by rw [exec_dey, decByte_eq]⟩

end Sys2Proof.Machine

/-! PROOF. Control flow (spec 46_control_flow.md): the jumps through the words they read, JSR and RTS through the bus
accesses of a pushed and of a pulled word, their round trip, and the branches. -/

namespace Sys2Proof.Machine

/-! ### Jumps -/

theorem word_eq_ofNat (h l : Byte) : word h l = BitVec.ofNat 16 (h.toNat * 256 + l.toNat) := by
  rw [← word_toNat, BitVec.ofNat_toNat, BitVec.setWidth_eq]

theorem word_add_one (h l : Byte) : word h l + 1#16 = BitVec.ofNat 16 (h.toNat * 256 + l.toNat + 1) := by
  rw [BitVec.ofNat_add, ← word_eq_ofNat]

/-- The indirect pointer's bytes are read at `w` and at the next low address of its page (40_step_and_addressing.md
R96). -/
theorem indirectTarget_eq (w : Word) (s : State) :
    let l := busRead w s
    let h := busRead (BitVec.ofNat 16 (w.toNat / 256 * 256 + (w.toNat % 256 + 1) % 256)) l.after
    indirectTarget w s = { value := word h.value l.value, after := h.after } := by
  have hpointer : word (hi w) (lo w + 1#8) = BitVec.ofNat 16 (w.toNat / 256 * 256 + (w.toNat % 256 + 1) % 256) := by
    rw [word_eq_ofNat, hi_toNat, BitVec.toNat_add, lo_toNat]
    rfl
  rw [indirectTarget, hpointer]
  rfl

theorem exec_jmpInd (w : Word) (s : State) : exec (.jmpInd w) s = .next (jumpIndirect w s) := rfl

/-- Settles O49: JMP absolute sets `pc` to its operand, JMP indirect to the word that `indirectTarget` reads. -/
theorem jumpInstructions : Obligations.JumpInstructions := by
  intro w s
  refine ⟨⟨rfl, rfl⟩, rfl, ?_⟩
  rw [exec_jmpInd, jumpIndirect_eq, indirectTarget_eq, word_eq_ofNat]

/-! ### Subroutines -/

theorem stackAddr_ne_stackAddr_sub_one (sp : Byte) : (stackAddr sp).toNat ≠ (stackAddr (sp - 1#8)).toNat := by
  rw [stackAddr_toNat, stackAddr_toNat]
  bv_omega

theorem push_storesByte (v : Byte) (s : State) : StoresByte s (push v s) (stackAddr s.sp) v :=
  busWrite_storesByte (u := s) rfl rfl (stackAddr s.sp) v

/-- A pushed word leaves every byte of the store alone but the two at `S` and below it. -/
theorem pushWord_read_ne (w : Word) (s : State) (a : Nat) (hlo : a ≠ (stackAddr (s.sp - 1#8)).toNat)
    (hhi : a ≠ (stackAddr s.sp).toNat) : (pushWord w s).store.read a = s.store.read a := by
  obtain ⟨hhigh, -, -⟩ := push_storesByte (hi w) s
  obtain ⟨hlow, -, -⟩ := push_storesByte (lo w) (push (hi w) s)
  rw [push_sp] at hlow
  exact (hlow a hlo).trans (hhigh a hhi)

/-- In `RAM` the high byte of a pushed word lies at `S`: the low byte's slot is another one, also where `S` wraps. -/
theorem pushWord_read_hi (w : Word) (s : State) (hs : s.store.wf = true) (hk : kindAt s (stackAddr s.sp) = some .ram) :
    (pushWord w s).store.read (stackAddr s.sp).toNat = hi w := by
  obtain ⟨-, -, hhigh⟩ := push_storesByte (hi w) s
  obtain ⟨hlow, -, -⟩ := push_storesByte (lo w) (push (hi w) s)
  rw [push_sp] at hlow
  exact (hlow _ (stackAddr_ne_stackAddr_sub_one s.sp)).trans (hhigh hk hs)

/-- In `RAM` the low byte of a pushed word lies below its high byte. -/
theorem pushWord_read_lo (w : Word) (s : State) (hs : s.store.wf = true)
    (hk : kindAt s (stackAddr (s.sp - 1#8)) = some .ram) :
    (pushWord w s).store.read (stackAddr (s.sp - 1#8)).toNat = lo w := by
  obtain ⟨-, -, hlow⟩ := push_storesByte (lo w) (push (hi w) s)
  rw [push_sp, kindAt_push] at hlow
  exact hlow hk (push_wf _ _ hs)

/-- A device at a slot is told the pushed byte, the one at `S` first. -/
theorem pushWord_deviceLog (w : Word) (s : State) :
    (pushWord w s).deviceLog =
      logAfterWrite s (stackAddr (s.sp - 1#8)) (lo w) (logAfterWrite s (stackAddr s.sp) (hi w) s.deviceLog) := by
  rw [pushWord, push_deviceLog, push_sp, busWrite_deviceLog_eq_logAfterWrite (push_regions (hi w) s), push_deviceLog,
    busWrite_deviceLog_eq_logAfterWrite rfl]

/-- Settles O50: the state after JSR is known whole but for the store, which is that of the pushed word. -/
theorem jumpToSubroutine : Obligations.JumpToSubroutine := by
  intro w s r a1 a0
  refine ⟨rfl, jumpSubroutine w s, rfl, ?_, pushWord_read_ne r s,
    fun hs => ⟨pushWord_read_hi r s hs, pushWord_read_lo r s hs⟩⟩
  rw [jumpSubroutine_eq, pushWord_deviceLog]

/-- A bus read does not depend on `S`. -/
theorem busRead_setSp (a : Word) (v : Byte) (s : State) :
    busRead a (s.setSp v) = { value := (busRead a s).value, after := (busRead a s).after.setSp v } := by
  rw [busRead, busRead, kindAt_setSp]
  split <;> rfl

/-- A pulled word is two bus reads in page 1, the low byte's first, with `S` raised by 2. -/
theorem pullWord_eq (s : State) :
    let l := busRead (stackAddr (s.sp + 1#8)) s
    let h := busRead (stackAddr (s.sp + 2#8)) l.after
    pullWord s = { value := word h.value l.value, after := h.after.setSp (s.sp + 2#8) } := by
  have hsp : s.sp + 1#8 + 1#8 = s.sp + 2#8 := by rw [BitVec.add_assoc]; rfl
  simp only [pullWord, pull, busRead_setSp, setSp_sp, hsp]
  rfl

theorem exec_rts (s : State) : exec .rts s = .next (returnSubroutine s) := rfl

/-- Settles O51: RTS resumes one past the word that it pulls. -/
theorem returnFromSubroutine : Obligations.ReturnFromSubroutine := by
  intro s l h
  refine ⟨rfl, ?_⟩
  rw [exec_rts, returnSubroutine_eq, pullWord_eq, ← word_add_one]
  rfl

/-- Settles O52: RTS reads, by O51, the two slots where JSR stored the address, by O50. -/
theorem subroutineRoundTrip : Obligations.SubroutineRoundTrip := by
  intro w s hs hram
  obtain ⟨-, t, hjsr, ht, -, hslots⟩ := jumpToSubroutine w s
  obtain ⟨hhigh, hlow⟩ := hslots hs
  have hregions : t.regions = s.regions := by rw [ht]
  have hsp : t.sp = s.sp - 2#8 := by rw [ht]
  have hsp1 : t.sp + 1#8 = s.sp - 1#8 := by rw [hsp]; bv_omega
  have hsp2 : t.sp + 2#8 = s.sp := by rw [hsp, BitVec.sub_add_cancel]
  have hread (q : Word) (n : Byte) :
      busRead (stackAddr n) (t.setPc q) = { value := t.store.read (stackAddr n).toNat, after := t.setPc q } :=
    busRead_storage _ _ (.inl ((kindAt_congr t s _ hregions).trans (hram n)))
  refine ⟨t, { s with store := t.store, deviceLog := t.deviceLog, cost := 6 }, hjsr, fun q => ?_,
    rfl, rfl, rfl, rfl, rfl, rfl⟩
  obtain ⟨-, hrts⟩ := returnFromSubroutine (t.setPc q)
  rw [hrts, hread, hread, setPc_sp, hsp1, hsp2, hhigh (hram _), hlow (hram _), ← word_add_one, word_hi_lo,
    BitVec.sub_add_cancel, ht]
  rfl

/-! ### Branches -/

/-- The target is `pc` plus the offset as a signed number, modulo 65536 (40_step_and_addressing.md R95). -/
theorem branchTarget_toNat (off : Byte) (s : State) :
    ((branchTarget off s).toNat : Int) = ((s.pc.toNat : Int) + off.toInt) % 65536 := by
  rw [branchTarget, BitVec.toNat_add, sext, BitVec.signExtend, BitVec.toNat_ofInt]
  omega

/-- A taken branch pays for a target in another page (70_reset_and_hazards.md R276). -/
theorem three_add_hi_bne (target pc : Word) :
    3 + (hi target != hi pc).toNat = if target.toNat / 256 = pc.toNat / 256 then 3 else 4 := by
  have hpage : hi target = hi pc ↔ target.toNat / 256 = pc.toNat / 256 := by
    rw [BitVec.toNat_eq, hi_toNat, hi_toNat]
  by_cases h : hi target = hi pc
  · rw [if_pos (hpage.1 h), bne_eq_false_iff_eq.2 h]
    rfl
  · rw [if_neg (mt hpage.2 h), bne_iff_ne.2 h]
    rfl

theorem branchForms_opcode (off : Byte) : ∀ f ∈ branchForms off, f.instr.opcode = f.opcode :=
  List.map_inj_left.1 rfl

/-- Settles O53: every form is the branch template on its condition, whose two cases are known whole. -/
theorem branchInstructions : Obligations.BranchInstructions := by
  intro off s f hf
  refine ⟨branchForms_opcode off f hf, fun hcond => ?_, fun hcond => ?_⟩
  · rw [exec_branchForm hf, branch_eq, hcond]
    rfl
  · refine ⟨branchTarget off s, branchTarget_toNat off s, ?_⟩
    rw [exec_branchForm hf, branch_eq, hcond, ← three_add_hi_bne]
    rfl

end Sys2Proof.Machine

/-! PROOF. Flags and system (spec 47_flags_system.md): the flag instructions, NOP and the illegal opcodes, the trap through
the three bus writes of its frame and the two bus reads of its vector, and RTI through its three bus reads. -/

namespace Sys2Proof.Machine

/-! ### Flag instructions, NOP, illegal opcodes -/

/-- Settles O54: the meanings set the flag and the cost. -/
theorem flagInstructions : Obligations.FlagInstructions := fun _ =>
  ⟨⟨rfl, rfl, rfl, rfl, rfl, rfl, rfl⟩, rfl, rfl, rfl, rfl, rfl, rfl, rfl⟩

/-- An illegal byte decodes, alone, to its own instruction: the encoding of that instruction is this one byte. -/
theorem decode_illegal {op : Byte} (h : op ∈ illegalOpcodes) : decode [op] = .ok (.ill op, []) :=
  decodeOfEncode (.ill op) [] ((wf_ill_iff op).2 h)

/-- Settles O55: both meanings set the cost alone, and an illegal byte decodes by O24. -/
theorem nopAndIllegalOpcodes : Obligations.NopAndIllegalOpcodes := fun _ =>
  ⟨rfl, rfl, fun _ hop => ⟨decode_illegal hop, rfl⟩⟩

/-! ### Bus accesses, the stack pointer and the flags -/

/-- A bus write does not depend on `S`. -/
theorem busWrite_setSp (a : Word) (v sp : Byte) (s : State) :
    busWrite a v (s.setSp sp) = (busWrite a v s).setSp sp := by
  rw [busWrite, busWrite, kindAt_setSp]
  split <;> rfl

/-- A bus read does not depend on the flags. -/
theorem busRead_setP (a : Word) (p : Flags) (s : State) :
    busRead a (s.setP p) = { value := (busRead a s).value, after := (busRead a s).after.setP p } := by
  rw [busRead, busRead, kindAt_setP]
  split <;> rfl

/-- A pull is the bus read of its slot, with `S` raised (42_stack.md R131). -/
theorem pull_eq (s : State) :
    let r := busRead (stackAddr (s.sp + 1#8)) s
    pull s = { value := r.value, after := r.after.setSp (s.sp + 1#8) } :=
  busRead_setSp _ _ s

/-! ### Traps -/

/-- The three pushes of a trap are the bus writes of its frame, with `S` lowered by 3. -/
theorem push_pushWord_eq (ret : Word) (status : Byte) (s : State) :
    push status (pushWord ret s) = (pushedFrame s ret status).setSp (s.sp - 3#8) := by
  have hsp2 : s.sp - 1#8 - 1#8 = s.sp - 2#8 := by bv_omega
  have hsp3 : s.sp - 2#8 - 1#8 = s.sp - 3#8 := by bv_omega
  simp only [pushWord, push, busWrite_setSp, setSp_sp, hsp2, hsp3]
  rfl

/-- A trap is the three writes of its frame and then the two reads of its vector: neither the lowered `S` nor the flag set
in between matters to the reads. -/
theorem takeTrap_eq_trapState (ret : Word) (b : Bool) (vector : Word) (s : State) :
    takeTrap ret b vector s = trapState s ret b vector := by
  simp only [takeTrap, pushWord_p, push_pushWord_eq, readWord, busRead_setP, busRead_setSp, trapState]
  ext1 <;> simp [pushedFrame]

theorem exec_brk (s : State) : exec .brk s = .next (takeTrap (s.pc + 1#16) true irqVector s) := rfl

/-- Settles O56: BRK is a trap, through the vector at 0xFFFE. -/
theorem breakInstruction : Obligations.BreakInstruction := fun s =>
  ⟨rfl, by rw [exec_brk, takeTrap_eq_trapState]; rfl⟩

/-- The three slots of a trap's frame are three addresses, also where `S` wraps. -/
theorem stackAddr_sub_two_ne (sp : Byte) :
    (stackAddr sp).toNat ≠ (stackAddr (sp - 2#8)).toNat ∧ (stackAddr (sp - 1#8)).toNat ≠ (stackAddr (sp - 2#8)).toNat := by
  simp only [stackAddr_toNat]
  constructor <;> bv_omega

/-- The last of a trap's three pushes stores the status byte, below the return address. -/
theorem takeTrap_storesByte (ret : Word) (b : Bool) (vector : Word) (s : State) :
    StoresByte (pushWord ret s) (takeTrap ret b vector s) (stackAddr (s.sp - 2#8)) (s.p.pack b) := by
  rw [StoresByte, takeTrap_store, ← pushWord_sp ret]
  exact push_storesByte _ _

/-- Settles O57: the return address lies where `pushWord` put it, and the status byte goes to a third slot. -/
theorem trapFrameInMemory : Obligations.TrapFrameInMemory := by
  intro s ret vector b t a2 a1 a0
  obtain ⟨hother, -, hstatus⟩ := takeTrap_storesByte ret b vector s
  obtain ⟨h2, h1⟩ := stackAddr_sub_two_ne s.sp
  rw [kindAt_pushWord] at hstatus
  refine ⟨takeTrap_eq_trapState ret b vector s, fun a ha0 ha1 ha2 => ?_,
    fun hs => ⟨fun hk => ?_, fun hk => ?_, fun hk => ?_⟩⟩
  · exact (hother a ha0).trans (pushWord_read_ne ret s a ha1 ha2)
  · exact (hother _ h2).trans (pushWord_read_hi ret s hs hk)
  · exact (hother _ h1).trans (pushWord_read_lo ret s hs hk)
  · exact hstatus hk (pushWord_wf ret s hs)

/-! ### Return from interrupt -/

/-- RTI is three bus reads in page 1, the status byte's first; setting the flags in between does not matter to the
reads. -/
theorem returnFromTrap_eq (s : State) :
    let f := busRead (stackAddr (s.sp + 1#8)) s
    let l := busRead (stackAddr (s.sp + 2#8)) f.after
    let h := busRead (stackAddr (s.sp + 3#8)) l.after
    returnFromTrap s =
      { s with
        p := Flags.unpack f.value, pc := word h.value l.value, sp := s.sp + 3#8, deviceLog := h.after.deviceLog
        cost := 6 } := by
  have hsp2 : s.sp + 1#8 + 1#8 = s.sp + 2#8 := by rw [BitVec.add_assoc]; rfl
  have hsp3 : s.sp + 1#8 + 2#8 = s.sp + 3#8 := by rw [BitVec.add_assoc]; rfl
  simp only [returnFromTrap, pull_eq, pullWord_eq, setP_sp, setSp_sp, busRead_setP, busRead_setSp, hsp2, hsp3]
  ext1 <;> simp

theorem exec_rti (s : State) : exec .rti s = .next (returnFromTrap s) := rfl

/-- Settles O58: the reads are those of `returnFromTrap`, and unpacking takes the six flag bits. -/
theorem returnFromInterrupt : Obligations.ReturnFromInterrupt := by
  intro s f l h
  refine ⟨rfl, ?_⟩
  rw [exec_rti, returnFromTrap_eq, word_eq_ofNat]
  rfl

end Sys2Proof.Machine

/-! PROOF. Exceptions (spec 60_exceptions.md): the invariant and the lines over a step of either kind, when an interrupt is
due, its entry as a trap, and the return from it. -/

namespace Sys2Proof.Machine

/-! ### The invariant -/

theorem enterInterrupt_wf (k : Interrupt) (s : State) (h : s.store.wf = true) :
    (enterInterrupt k s).store.wf = true := by
  cases k with
  | nmi => exact takeTrap_wf s.pc false nmiVector (s.setNmiPending false) h
  | irq => exact takeTrap_wf s.pc false irqVector s h

/-- An interrupt entry and an instruction both keep the store's canonical form. -/
theorem step_wf {s t : State} (h : step s = .next t) (hs : s.store.wf = true) : t.store.wf = true := by
  rcases step_cases h with ⟨k, -, rfl⟩ | ⟨-, hx⟩
  · exact enterInterrupt_wf k s hs
  · exact exec_wf _ _ _ hx (by rwa [fetchInstr_after_store])

/-- Settles O21: a step keeps the store's canonical form, and the region table it does not change. -/
theorem stepKeepsInvariant : Obligations.StepKeepsInvariant := by
  rintro s t ⟨hstore, hregions⟩ h
  exact ⟨step_wf h hstore, by rwa [step_regions h]⟩

/-! ### Which interrupt is due -/

/-- With the lines, a latched NMI comes first (60_exceptions.md R236, R237). -/
theorem dueInterrupt_eq_nmi_iff (s : State) :
    dueInterrupt s = some .nmi ↔ s.hasIntLines = true ∧ s.nmiPending = true := by
  unfold dueInterrupt
  split_ifs <;> simp_all

/-- With the lines and no NMI, an active IRQ line counts while `I` is 0 (60_exceptions.md R236). -/
theorem dueInterrupt_eq_irq_iff (s : State) :
    dueInterrupt s = some .irq ↔
      s.hasIntLines = true ∧ s.nmiPending = false ∧ s.irqLine = true ∧ s.p.i = false := by
  unfold dueInterrupt
  split_ifs <;> simp_all

/-- Nothing is due without the lines, or with no NMI latched and IRQ inactive or masked (60_exceptions.md R233, R236). -/
theorem dueInterrupt_eq_none_iff (s : State) :
    dueInterrupt s = none ↔
      s.hasIntLines = false ∨ (s.nmiPending = false ∧ (s.irqLine = false ∨ s.p.i = true)) := by
  unfold dueInterrupt
  split_ifs <;> simp_all [imp_iff_not_or]

/-! ### What a step keeps -/

theorem enterInterrupt_lines (k : Interrupt) (s : State) :
    (enterInterrupt k s).hasIntLines = s.hasIntLines ∧ (enterInterrupt k s).irqLine = s.irqLine := by
  cases k with
  | nmi | irq => simp [enterInterrupt]

theorem step_lines {s t : State} (h : step s = .next t) :
    t.hasIntLines = s.hasIntLines ∧ t.irqLine = s.irqLine := by
  rcases step_cases h with ⟨k, -, rfl⟩ | ⟨-, hx⟩
  · exact enterInterrupt_lines k s
  · obtain ⟨-, hlines, hirq, -⟩ := exec_configuration _ _ _ hx
    exact ⟨hlines.trans (fetchInstr_after_hasIntLines s), hirq.trans (fetchInstr_after_irqLine s)⟩

/-- With the lines the latch is clear after every step: NMI entry clears it, and nothing else runs while it is set. Without
them no step clears it (60_exceptions.md R233, R235). -/
theorem step_nmiPending {s t : State} (h : step s = .next t) :
    t.nmiPending = (s.nmiPending && !s.hasIntLines) := by
  rcases step_cases h with ⟨k, hd, rfl⟩ | ⟨hd, hx⟩
  · cases k with
    | nmi =>
      obtain ⟨hlines, -⟩ := (dueInterrupt_eq_nmi_iff s).1 hd
      simp [enterInterrupt, hlines]
    | irq =>
      obtain ⟨-, hnmi, -, -⟩ := (dueInterrupt_eq_irq_iff s).1 hd
      simp [enterInterrupt, hnmi]
  · obtain ⟨-, -, -, hlatch⟩ := exec_configuration _ _ _ hx
    rw [hlatch, fetchInstr_after_nmiPending]
    rcases (dueInterrupt_eq_none_iff s).1 hd with hlines | ⟨hnmi, -⟩
    · simp [hlines]
    · simp [hnmi]

/-- Settles O19: the region table, the lines and the latch, each by its own lemma about a step. -/
theorem stepKeepsConfigurationAndLines : Obligations.StepKeepsConfigurationAndLines := by
  intro s t h
  obtain ⟨hlines, hirq⟩ := step_lines h
  exact ⟨step_regions h, hlines, hirq, step_nmiPending h⟩

/-- Settles O9: an interrupt entry completes, and so does every instruction. -/
theorem stepAlwaysCompletes : Obligations.StepAlwaysCompletes := exists_step_eq_next

/-! ### Interrupt entry -/

/-- A bus read does not depend on the NMI latch. -/
theorem busRead_setNmiPending (a : Word) (b : Bool) (s : State) :
    busRead a (s.setNmiPending b) = { value := (busRead a s).value, after := (busRead a s).after.setNmiPending b } := by
  rw [busRead, busRead, kindAt_setNmiPending]
  split <;> rfl

/-- A bus write does not depend on the NMI latch. -/
theorem busWrite_setNmiPending (a : Word) (v : Byte) (b : Bool) (s : State) :
    busWrite a v (s.setNmiPending b) = (busWrite a v s).setNmiPending b := by
  rw [busWrite, busWrite, kindAt_setNmiPending]
  split <;> rfl

/-- A trap neither reads the NMI latch nor changes it. -/
theorem trapState_setNmiPending (l : Bool) (s : State) (ret : Word) (b : Bool) (vector : Word) :
    trapState (s.setNmiPending l) ret b vector = (trapState s ret b vector).setNmiPending l := by
  have hframe : pushedFrame (s.setNmiPending l) ret (s.p.pack b) =
      (pushedFrame s ret (s.p.pack b)).setNmiPending l := by
    simp only [pushedFrame, setNmiPending_sp, busWrite_setNmiPending]
  simp only [trapState, setNmiPending_p, hframe, busRead_setNmiPending]
  rfl

theorem enterInterrupt_nmi_eq (s : State) :
    enterInterrupt .nmi s = (trapState s s.pc false nmiVector).setNmiPending false := by
  rw [enterInterrupt, takeTrap_eq_trapState, trapState_setNmiPending]

theorem enterInterrupt_irq_eq (s : State) : enterInterrupt .irq s = trapState s s.pc false irqVector :=
  takeTrap_eq_trapState s.pc false irqVector s

/-- Settles O60: each case says which interrupt is due, and the entry is the trap with its vector. -/
theorem interruptEntry : Obligations.InterruptEntry := by
  intro s
  refine ⟨fun hlines hnmi => ?_, fun hlines hnmi hirq hi => ?_, fun _ hnmi hirq => ?_, fun hlines => ?_⟩
  · rw [step_of_interrupt s .nmi ((dueInterrupt_eq_nmi_iff s).2 ⟨hlines, hnmi⟩), enterInterrupt_nmi_eq]
    rfl
  · rw [step_of_interrupt s .irq ((dueInterrupt_eq_irq_iff s).2 ⟨hlines, hnmi, hirq, hi⟩), enterInterrupt_irq_eq]
    rfl
  · exact step_of_no_interrupt s ((dueInterrupt_eq_none_iff s).2 (.inr ⟨hnmi, hirq⟩))
  · exact step_of_no_interrupt s ((dueInterrupt_eq_none_iff s).2 (.inl hlines))

/-! ### Trap and return -/

/-- Settles O59: RTI reads, by O58, the three slots where the trap stored its frame, by O57. -/
theorem trapRoundTrip : Obligations.TrapRoundTrip := by
  intro s ret vector b hs hram
  obtain ⟨-, -, hslots⟩ := trapFrameInMemory s ret vector b
  obtain ⟨hhigh, hlow, hstatus⟩ := hslots hs
  generalize ht : takeTrap ret b vector s = t at hhigh hlow hstatus ⊢
  have hregions : t.regions = s.regions := ht ▸ takeTrap_regions ret b vector s
  have hsp : t.sp = s.sp - 3#8 := ht ▸ takeTrap_sp ret b vector s
  have hsp1 : t.sp + 1#8 = s.sp - 2#8 := by rw [hsp]; bv_omega
  have hsp2 : t.sp + 2#8 = s.sp - 1#8 := by rw [hsp]; bv_omega
  have hsp3 : t.sp + 3#8 = s.sp := by rw [hsp, BitVec.sub_add_cancel]
  have hread (q : Word) (n : Byte) :
      busRead (stackAddr n) (t.setPc q) = { value := t.store.read (stackAddr n).toNat, after := t.setPc q } :=
    busRead_storage _ _ (.inl ((kindAt_congr t s _ hregions).trans (hram n)))
  refine ⟨{ t with p := s.p, pc := ret, sp := s.sp, cost := 6 }, fun q => ?_, rfl, rfl, rfl, ?_, ?_, ?_⟩
  · rw [exec_rti, returnFromTrap_eq]
    simp only [setPc_sp, hsp1, hsp2, hsp3, hread, hhigh (hram _), hlow (hram _), hstatus (hram _), unpack_pack,
      word_hi_lo]
    rfl
  · exact ht ▸ takeTrap_a ret b vector s
  · exact ht ▸ takeTrap_x ret b vector s
  · exact ht ▸ takeTrap_y ret b vector s

end Sys2Proof.Machine

/-! PROOF. Construction, reset, the bypass and costs (spec 70_reset_and_hazards.md, 20_memory.md section 4): the store that
construction leaves, byte by byte, the first `pc`, and the cost of every instruction against the table. -/

namespace Sys2Proof.Machine

/-! ### Reset -/

/-- Settles O1: the chosen input has a valid table and a zero store, whose reset vector is 0x0000. -/
theorem resetStateIsAConstruction : Obligations.ResetStateIsAConstruction :=
  ⟨rfl, rfl, Memory.read_nil, rfl, rfl⟩

/-- Settles O14: assignment is `setPc`, of the value modulo 65536. -/
theorem hostAssignsTheProgramCounter : Obligations.HostAssignsTheProgramCounter := by
  intro n s
  refine ⟨rfl, ?_⟩
  rw [assignPc, setPc_pc, BitVec.toNat_ofInt]
  omega

/-! ### The bypass -/

theorem readRange_of_le (start length : Nat) (s : State) (h : start + length ≤ Config.spaceSize) :
    readRange start length s = .next (s.store.readList start length) := if_pos h

theorem readRange_of_lt (start length : Nat) (s : State) (h : Config.spaceSize < start + length) :
    readRange start length s = .refused .rangePastStore := if_neg (by omega)

/-- Settles O8: inside the store both calls are the store's own list operations, past its end both are refused. -/
theorem bypassReadsAndWritesTheStore : Obligations.BypassReadsAndWritesTheStore := by
  intro start length bytes s
  refine ⟨fun h => ?_, readRange_of_lt start length s, fun h hs => ?_, writeRange_of_lt start bytes s⟩
  · exact ⟨_, readRange_of_le start length s h, Memory.readList_length _ _ _,
      Memory.readList_getElem s.store start length⟩
  · exact ⟨_, writeRange_of_le start bytes s h, rfl, Memory.writeList_wf s.store start bytes h hs,
      fun i hi => Memory.read_writeList s.store start i bytes hi h hs,
      fun a => Memory.read_writeList_of_lt_or_le s.store start a bytes⟩

/-! ### The store after construction -/

/-- Every address of the store after a write of consecutive bytes. -/
theorem Memory.read_writeList_eq_ite (m : Memory) (start a : Nat) (vs : List Byte)
    (hs : start + vs.length ≤ Config.spaceSize) (hm : m.wf = true) :
    (m.writeList start vs).read a =
      if start ≤ a ∧ a < start + vs.length then vs.getD (a - start) 0x00#8 else m.read a := by
  split
  · next ha =>
    obtain ⟨i, rfl⟩ := Nat.exists_eq_add_of_le ha.1
    have hi : i < vs.length := by omega
    rw [Memory.read_writeList m start i vs hi hs hm, Nat.add_sub_cancel_left, List.getD_eq_getElem _ _ hi]
  · next ha => exact Memory.read_writeList_of_lt_or_le m start a vs (by omega)

theorem initialBytes_of_none {r : RegionDescriptor} (h : r.initialSource = none) : initialBytes r = [] := by
  simp only [initialBytes, h]

theorem initialBytes_of_some {r : RegionDescriptor} {src : List Byte} (h : r.initialSource = some src) :
    initialBytes r = (src.drop r.sourceOffset).take r.length := by
  simp only [initialBytes, h]

theorem initialBytes_length_le (r : RegionDescriptor) : (initialBytes r).length ≤ r.length := by
  cases h : r.initialSource with
  | none => rw [initialBytes_of_none h]; exact Nat.zero_le _
  | some src => rw [initialBytes_of_some h]; exact List.length_take_le _ _

/-- Inside its region a descriptor's bytes are those of its source from the offset on, where the source has them
(20_memory.md R34). -/
theorem initialByteAt_cons (r : RegionDescriptor) (ds : List RegionDescriptor) (a : Nat) :
    initialByteAt (r :: ds) a =
      if r.start ≤ a ∧ a < r.start + r.length then (initialBytes r).getD (a - r.start) 0x00#8
      else initialByteAt ds a := by
  rw [initialByteAt]
  refine if_ctx_congr Iff.rfl (fun ha => ?_) fun _ => rfl
  have hlt : a - r.start < r.length := by omega
  cases h : r.initialSource with
  | none => rw [initialBytes_of_none h]; rfl
  | some src =>
    rw [initialBytes_of_some h]
    simp only [List.getD_eq_getElem?_getD, List.getElem?_take_of_lt hlt, List.getElem?_drop]

/-- Over the zero fill, a descriptor's bytes are there up to the end of its region. -/
theorem read_writeList_initialBytes {m : Memory} {r : RegionDescriptor} {a : Nat}
    (hspace : r.start + r.length ≤ Config.spaceSize) (hm : m.wf = true) (hzero : m.read a = 0x00#8)
    (ha : r.start ≤ a) : (m.writeList r.start (initialBytes r)).read a = (initialBytes r).getD (a - r.start) 0x00#8 := by
  have hlen := initialBytes_length_le r
  rw [Memory.read_writeList_eq_ite m _ a _ (by omega) hm]
  split
  · rfl
  · rw [hzero, List.getD_eq_default _ _ (by omega)]

/-- The initial sources leave every address outside their regions alone. -/
theorem initialStore_read_of_not_covered (ds : List RegionDescriptor) (m : Memory) (a : Nat)
    (h : ∀ r ∈ ds, ¬(r.start ≤ a ∧ a < r.start + r.length)) : (initialStore ds m).read a = m.read a := by
  induction ds generalizing m with
  | nil => rfl
  | cons r ds ih =>
    rw [List.forall_mem_cons] at h
    obtain ⟨hr, hds⟩ := h
    have hlen := initialBytes_length_le r
    rw [initialStore, ih _ hds, Memory.read_writeList_of_lt_or_le _ _ _ _ (by omega)]

/-- The store of the initial sources, byte by byte: the one region that holds an address gives its byte. -/
theorem initialStore_read (ds : List RegionDescriptor) (m : Memory) (a : Nat)
    (hvalid : validRegions (ds.map descriptorRegion) = true) (hm : m.wf = true) (hzero : m.read a = 0x00#8) :
    (initialStore ds m).read a = initialByteAt ds a := by
  rw [validRegions_descriptors_iff] at hvalid
  obtain ⟨hspace, hpair⟩ := hvalid
  induction ds generalizing m with
  | nil => exact hzero
  | cons r ds ih =>
    rw [List.forall_mem_cons] at hspace
    rw [List.pairwise_cons] at hpair
    obtain ⟨⟨-, hr⟩, hspace⟩ := hspace
    obtain ⟨hdisjoint, hpair⟩ := hpair
    have hlen := initialBytes_length_le r
    rw [initialStore, initialByteAt_cons]
    split
    · next ha =>
      rw [initialStore_read_of_not_covered _ _ _ fun t ht hta => hdisjoint t ht a ⟨ha, hta⟩]
      exact read_writeList_initialBytes hr hm hzero ha.1
    · next ha =>
      refine ih _ (Memory.writeList_wf m _ _ (Nat.le_trans (by omega) hr) hm) ?_ hspace hpair
      rw [Memory.read_writeList_of_lt_or_le _ _ _ _ (by omega), hzero]

/-- The store after the host's writes. -/
def storeAfterWrites (ws : List BypassWrite) (m : Memory) : Memory :=
  ws.foldl (fun m w => m.writeList w.start w.bytes) m

/-- The last of the host's writes that covers an address decides its byte (20_memory.md R46). -/
theorem storeAfterWrites_read (ws : List BypassWrite) (m : Memory) (a : Nat)
    (hs : ∀ w ∈ ws, w.start + w.bytes.length ≤ Config.spaceSize) (hm : m.wf = true) :
    (storeAfterWrites ws m).read a = byteAfterWrites ws a (m.read a) := by
  induction ws generalizing m with
  | nil => rfl
  | cons w ws ih =>
    rw [List.forall_mem_cons] at hs
    obtain ⟨hw, hws⟩ := hs
    rw [byteAfterWrites, ← Memory.read_writeList_eq_ite m w.start a w.bytes hw hm]
    exact ih _ hws (Memory.writeList_wf m w.start w.bytes hw hm)

/-! ### The first `pc` -/

/-- A bus read does not depend on `pc`. -/
theorem busRead_setPc (a : Word) (q : Word) (s : State) :
    busRead a (s.setPc q) = { value := (busRead a s).value, after := (busRead a s).after.setPc q } := by
  rw [busRead, busRead, kindAt_setPc]
  split <;> rfl

/-- The initial `pc` touches `pc` and the device history alone. -/
theorem setInitialPc_eq (pc : Option Nat) (s : State) :
    setInitialPc pc s =
      (s.setDeviceLog (setInitialPc pc s).deviceLog).setPc (setInitialPc pc s).pc := by
  cases pc with
  | none => rw [setInitialPc, readWord_after]; rfl
  | some n => rfl

theorem setInitialPc_some (n : Nat) (s : State) :
    (setInitialPc (some n) s).pc.toNat = n % 65536 ∧ (setInitialPc (some n) s).deviceLog = s.deviceLog := by
  simp [setInitialPc]

/-- The default `pc` is the word at the reset vector, which the two bus reads find unchanged afterwards too
(70_reset_and_hazards.md R261). -/
theorem setInitialPc_none (s : State) :
    let t := setInitialPc none s
    let l := busRead 0xFFFC#16 (t.setDeviceLog s.deviceLog)
    let h := busRead 0xFFFD#16 l.after
    t.pc.toNat = h.value.toNat * 256 + l.value.toNat ∧ t.deviceLog = h.after.deviceLog := by
  intro t
  have ht : t.setDeviceLog s.deviceLog = s.setPc t.pc :=
    congrArg (·.setDeviceLog s.deviceLog) (setInitialPc_eq none s)
  simp only [ht, busRead_setPc, ← word_toNat]
  exact ⟨rfl, rfl⟩

/-- Construction of a valid table, with all of the host's writes inside the store. -/
theorem construct_eq_next (c : ConstructionInput) (hvalid : validRegions (c.regions.map descriptorRegion) = true)
    (hs : ∀ w ∈ c.hostWrites, w.start + w.bytes.length ≤ Config.spaceSize) :
    construct c =
      .next (setInitialPc c.initialPc
        ((withAddressSpace c).setStore (storeAfterWrites c.hostWrites (initialStore c.regions [])))) := by
  rw [construct, if_pos hvalid, placeBytes_of_le _ _ hs, andThen_next]
  rfl

/-- Settles O2: a write past the end is refused, and without one the store is that of the sources and the writes, around it
the input's registers, and `pc` last. -/
theorem constructionFollowsItsInputs : Obligations.ConstructionFollowsItsInputs := by
  intro c hvalid
  refine ⟨fun hlt => ?_, fun hs => ⟨_, construct_eq_next c hvalid hs, ?_⟩⟩
  · rw [construct, if_pos hvalid, placeBytes_of_lt _ _ hlt, andThen_refused]
  · have hinit : (initialStore c.regions []).wf = true := (withAddressSpace_inv c hvalid).1
    obtain ⟨hwf, -⟩ := invariantHoldsAfterConstruction.2 c _ (construct_eq_next c hvalid hs)
    have hread (a : Nat) : (storeAfterWrites c.hostWrites (initialStore c.regions [])).read a =
        byteAfterWrites c.hostWrites a (initialByteAt c.regions a) := by
      rw [storeAfterWrites_read _ _ a hs hinit, initialStore_read c.regions [] a hvalid rfl rfl]
    rw [setInitialPc_eq] at hwf ⊢
    refine ⟨rfl, rfl, rfl, rfl, rfl, rfl, rfl, rfl, rfl, hwf, hread, fun n hn => ?_, fun hn => ?_⟩
    · rw [← setInitialPc_eq, hn]
      exact setInitialPc_some n _
    · rw [← setInitialPc_eq, hn]
      exact setInitialPc_none _

/-! ### Costs -/

/-- A cost that the table allows for an opcode byte (70_reset_and_hazards.md R276). -/
def CostAllowed (op : Byte) (cost : Nat) : Prop :=
  let base := cycleTable.getD op.toNat 0
  base ≤ cost ∧ cost ≤ base + (if op ∈ pageCrossOpcodes then 1 else 0) + (if op ∈ branchOpcodes then 2 else 0)

/-- The base cost is allowed. -/
theorem CostAllowed.of_eq {op : Byte} {cost : Nat} (h : cost = cycleTable.getD op.toNat 0) : CostAllowed op cost := by
  subst h
  exact ⟨Nat.le_refl _, by omega⟩

/-- An instruction that pays for a page crossing `px`. -/
theorem CostAllowed.of_pageCross {op : Byte} {cost : Nat} (px : Bool) (hop : op ∈ pageCrossOpcodes)
    (h : cost = cycleTable.getD op.toNat 0 + px.toNat) : CostAllowed op cost := by
  have := px.toNat_le
  simp only [CostAllowed, hop, if_true]
  omega

/-- A branch: 2, or when taken 3 and the page crossing (46_control_flow.md R194). -/
theorem CostAllowed.of_branch {op : Byte} (hop : op ∈ branchOpcodes) (hbase : cycleTable.getD op.toNat 0 = 2)
    (cond : Bool) (off : Byte) (s : State) : CostAllowed op (branch cond off s).cost := by
  have hpx := (hi (branchTarget off s) != hi s.pc).toNat_le
  rw [branch_eq]
  simp only [CostAllowed, hop, if_true, hbase]
  split <;> dsimp only <;> omega

/-- An illegal byte costs 2 (47_flags_system.md R220); the 105 entries of the table are compared all at once. -/
theorem illegal_baseCost : ∀ op ∈ illegalOpcodes, cycleTable.getD op.toNat 0 = 2 :=
  List.map_inj_left.1 rfl

/-- Only the branches and the reads that index a word depend on the state for their cost; every other meaning sets the one
cost of its form, which is the table's. -/
theorem exec_costAllowed {i : Instr} {s t : State} (hwf : i.wf = true) (h : exec i s = .next t) :
    CostAllowed i.opcode t.cost := by
  cases i with
  | ill op => cases h; exact .of_eq (illegal_baseCost op ((wf_ill_iff op).1 hwf)).symm
  | bcc | bcs | beq | bne | bmi | bpl | bvc | bvs => cases h; rw [Instr.opcode]; exact .of_branch (by decide) rfl _ _ _
  | adcAbx w | andAbx w | cmpAbx w | eorAbx w | ldaAbx w | ldyAbx w | oraAbx w | sbcAbx w =>
    cases h; rw [Instr.opcode]; exact .of_pageCross (indexed w s.x s).px (by decide) rfl
  | adcAby w | andAby w | cmpAby w | eorAby w | ldaAby w | ldxAby w | oraAby w | sbcAby w =>
    cases h; rw [Instr.opcode]; exact .of_pageCross (indexed w s.y s).px (by decide) rfl
  | adcIzy b | andIzy b | cmpIzy b | eorIzy b | ldaIzy b | oraIzy b | sbcIzy b =>
    cases h; rw [Instr.opcode]; exact .of_pageCross (resolve (.izy b) s).px (by decide) rfl
  | _ => cases h; exact .of_eq rfl

/-- Settles O23: `CostAllowed` is the statement's bound. -/
theorem costIsTheTableValue : Obligations.CostIsTheTableValue := fun _ _ _ hwf h => exec_costAllowed hwf h

end Sys2Proof.Machine
